-- ==== Sys2Proof/Word.lean ====
section
/-! DEFINITION. The value types of the block: 32-bit input words, 64-bit count registers, bit sequences and
sample sequences (spec/00_scope.md R6, R7, R10; spec/10_state.md R21). -/

namespace Sys2Proof

/-- A numeric input word or configuration register, `IN_W = 32` bits, two's complement (R6, R21). -/
abbrev Word := BitVec 32

/-- A count register, 64 bits unsigned (R21, D26). -/
abbrev Count := BitVec 64

/-- A bit sequence, element 0 first (R7); `true` is the bit 1. -/
abbrev Bits := List Bool

/-- A sample sequence, sample 0 first (R10); `true` is sample 1, the high level, `false` is sample 0, the low level (D22). -/
abbrev Samples := List Bool

end Sys2Proof
end

