-- ==== Sys2Proof/Config.lean ====
section
/-! DEFINITION. What is fixed for the block: the implementation parameters of spec/00_scope.md R6. `MASK_MAX` is the one
OPEN parameter: an opaque constant, so that nothing proved rests on a value of it beyond `MASK_MAX >= 255`. -/

namespace Sys2Proof

/-- `BLF_HZ`, the link frequency Query gives the preamble, in Hz (R6, D24). -/
def Config.blfHz : Nat := 40000

/-- `DELIM_US`, the delimiter's duration in microseconds (R6, R132). -/
def Config.delimUs : Nat := 12

/-- `P_DEFAULT`, the default pulse-width divisor (R6): the reset value of `CFG_P` (R230) and what a written CONFIGURE
without a divisor means (R96). -/
def Config.pDefault : Nat := 12

/-- By how much the largest mask length of this block's request port exceeds 255: left open by the spec (D5, I7). -/
opaque Config.maskExcess : Nat

/-- `MASK_MAX`, the largest mask length the request port carries: OPEN, at least 255 (R6, D5). Log entry 2. -/
def Config.maskMax : Nat := Config.maskExcess + 255

/-- An exact positive rational rate value, as numerator and denominator (R6: 64/3 is not rounded). -/
structure Rate where
  num : Nat
  den : Nat
  deriving DecidableEq, Repr

/-- The rate value of `DR_8` (R6, R85). -/
def Config.rate8 : Rate := ⟨8, 1⟩

/-- The rate value of `DR_64_3` (R6, R85). -/
def Config.rate643 : Rate := ⟨64, 3⟩

end Sys2Proof
end

