-- ==== Sys2Proof/Syntax.lean ====
section
/-! DEFINITION. Requests: the named values of the field code tables (spec/30_encoding.md section 3), the request record as
it stands on the request port (R32, R70, R71), and `Instr`, one constructor per row of spec/opcode_table.json. -/

namespace Sys2Proof

/-- Select `target` (R80). -/
inductive SelectTarget where
  | invS0 | invS1 | invS2 | invS3 | sl
  deriving DecidableEq, Repr

/-- `mem_bank` (R82). -/
inductive MemBank where
  | fileType | epc | tid | file0
  deriving DecidableEq, Repr

/-- Query `dr` (R85). -/
inductive DivideRatio where
  | dr8 | dr643
  deriving DecidableEq, Repr

/-- Query `miller` (R86). -/
inductive Miller where
  | m1 | m2 | m4 | m8
  deriving DecidableEq, Repr

/-- Query `sel` (R88). -/
inductive Sel where
  | all | notSl | sl
  deriving DecidableEq, Repr

/-- `session`, the same in Query, QueryRep and QueryAdjust (R89). -/
inductive Session where
  | s0 | s1 | s2 | s3
  deriving DecidableEq, Repr

/-- Query `target` (R90). -/
inductive InvTarget where
  | a | b
  deriving DecidableEq, Repr

/-- QueryAdjust `updn` (R92). -/
inductive UpDn where
  | unchanged | increase | decrease
  deriving DecidableEq, Repr

/-- A decoded request: one constructor per row of the opcode table, with the fields of R71 in their order. `mask_len` is
the number of bits of `mask` (R71, R96). The reserved kinds carry no field that any rule reads (R204). -/
inductive Instr where
  /-- SELECT, `req_kind` 0 (R170). -/
  | select (target : SelectTarget) (action : Word) (memBank : MemBank) (pointer : Word) (length : Word) (mask : Bits)
      (trunc : Bool)
  /-- QUERY, `req_kind` 1 (R171). -/
  | query (dr : DivideRatio) (miller : Miller) (trext : Bool) (sel : Sel) (session : Session) (target : InvTarget)
      (q : Word)
  /-- QUERYREP, `req_kind` 2 (R172). -/
  | queryrep (session : Session)
  /-- QUERYADJUST, `req_kind` 3 (R173). -/
  | queryadjust (session : Session) (updn : UpDn)
  /-- ACK, `req_kind` 4 (R174). -/
  | ack (rn16 : BitVec 16)
  /-- CONFIGURE, `req_kind` 5 (R130). -/
  | configure (samplingRate : Word) (pulseWidthDivisor : Word)
  /-- `req_kind` 6 (R204). -/
  | reserved6
  /-- `req_kind` 7 (R204). -/
  | reserved7
  deriving DecidableEq, Repr

/-- `CONFIGURE sampling_rate=R` with no divisor: the one defaulting of the request syntax (R96, R97). -/
def Instr.configureDefault (samplingRate : Word) : Instr :=
  .configure samplingRate (BitVec.ofNat 32 Config.pDefault)

/-- A request record on the port (R32): the kind code and the values of the kind's fields in the order of R71, each as
the bit sequence of its port type, most significant bit first (DESIGN CHOICE, log entry 4: the spec names the fields and
their widths, no packing). The mask field is the `mask_len` mask bits, so its length is `mask_len`. -/
structure Request where
  reqKind : BitVec 3
  fields : List Bits
  deriving DecidableEq, Repr

/-- Why a record is no well-formed request. -/
inductive DecodeError where
  /-- A code-w field holds a code no named value has: the request is refused with `ILLEGAL_REQUEST` (R73, R204). -/
  | unnamedCode
  /-- The fields are not those R71 gives the kind, in number or in width: the port cannot carry such a record (log entry 3). -/
  | fieldsNotOfKind
  /-- The mask is longer than `MASK_MAX`: the port cannot carry such a record (R71; log entry 3). -/
  | maskTooLong
  deriving DecidableEq, Repr

end Sys2Proof
end

