-- ==== Sys2Proof/WellFormed.lean ====
section
/-! DEFINITION. Which requests the request port can carry: every field type of `Instr` is exact but the mask, whose length
is at most `MASK_MAX` (spec/30_encoding.md R71). -/

namespace Sys2Proof

/-- `mask_len <= MASK_MAX` (R71, D5); since `MASK_MAX >= 255` a length up to 255 needs no look at the open parameter. -/
def maskFits (maskLen : Nat) : Bool :=
  decide (maskLen ≤ 255) || decide (maskLen ≤ Config.maskMax)

/-- The request can stand on the request port (R71). -/
def Instr.wellFormed : Instr → Bool
  | .select _ _ _ _ _ mask _ => maskFits mask.length
  | .query _ _ _ _ _ _ _ => true
  | .queryrep _ => true
  | .queryadjust _ _ => true
  | .ack _ => true
  | .configure _ _ => true
  | .reserved6 => true
  | .reserved7 => true

end Sys2Proof
end

