-- ==== Sys2Proof/Decode.lean ====
section
/-! DEFINITION. Bit-field helpers (spec/00_scope.md R8), the field code tables (spec/30_encoding.md R80 to R92), the decoder
from a request record to an `Instr` (R70 to R73, R204) and the encoder back, and the word numbering of
spec/opcode_table.json. -/

namespace Sys2Proof

/-! ### Bits and integers (R8) -/

/-- The `w` low bits of the natural `v`, most significant first. -/
def bitsOfNat : Nat → Nat → Bits
  | 0, _ => []
  | w + 1, v => v.testBit w :: bitsOfNat w v

/-- `bits_w(v)` of R8: the `w`-bit sequence of `v mod 2^w`, most significant bit first, for any integer `v`. -/
def bitsW (w : Nat) (v : Int) : Bits :=
  bitsOfNat w (v % 2 ^ w).toNat

/-- `val(s)` of R8: the unsigned integer a bit sequence denotes, element 0 the most significant. -/
def valOf (s : Bits) : Nat :=
  s.foldl (fun acc b => 2 * acc + b.toNat) 0

/-- The bits of a word, most significant first. -/
def wordBits {w : Nat} (x : BitVec w) : Bits :=
  bitsOfNat w x.toNat

/-! ### Field code tables -/

/-- R80. -/
def selectTargetCode : SelectTarget → BitVec 3
  | .invS0 => 0b000
  | .invS1 => 0b001
  | .invS2 => 0b010
  | .invS3 => 0b011
  | .sl => 0b100

/-- R80; codes 101, 110 and 111 have no name (R73). -/
def selectTargetOf (c : BitVec 3) : Option SelectTarget :=
  match c.toNat with
  | 0 => some .invS0
  | 1 => some .invS1
  | 2 => some .invS2
  | 3 => some .invS3
  | 4 => some .sl
  | _ => none

/-- R82. -/
def memBankCode : MemBank → BitVec 2
  | .fileType => 0b00
  | .epc => 0b01
  | .tid => 0b10
  | .file0 => 0b11

/-- R82: every code is named. -/
def memBankOf (c : BitVec 2) : MemBank :=
  match c.toNat with
  | 0 => .fileType
  | 1 => .epc
  | 2 => .tid
  | _ => .file0

/-- R85. -/
def drCode : DivideRatio → BitVec 1
  | .dr8 => 0
  | .dr643 => 1

/-- R85. -/
def drOf (c : BitVec 1) : DivideRatio :=
  match c.toNat with
  | 0 => .dr8
  | _ => .dr643

/-- R86. -/
def millerCode : Miller → BitVec 2
  | .m1 => 0b00
  | .m2 => 0b01
  | .m4 => 0b10
  | .m8 => 0b11

/-- R86: every code is named. -/
def millerOf (c : BitVec 2) : Miller :=
  match c.toNat with
  | 0 => .m1
  | 1 => .m2
  | 2 => .m4
  | _ => .m8

/-- R88. -/
def selCode : Sel → BitVec 2
  | .all => 0b00
  | .notSl => 0b10
  | .sl => 0b11

/-- R88; code 01 has no name (R73). -/
def selOf (c : BitVec 2) : Option Sel :=
  match c.toNat with
  | 0 => some .all
  | 2 => some .notSl
  | 3 => some .sl
  | _ => none

/-- R89. -/
def sessionCode : Session → BitVec 2
  | .s0 => 0b00
  | .s1 => 0b01
  | .s2 => 0b10
  | .s3 => 0b11

/-- R89. -/
def sessionOf (c : BitVec 2) : Session :=
  match c.toNat with
  | 0 => .s0
  | 1 => .s1
  | 2 => .s2
  | _ => .s3

/-- R90. -/
def invTargetCode : InvTarget → BitVec 1
  | .a => 0
  | .b => 1

/-- R90. -/
def invTargetOf (c : BitVec 1) : InvTarget :=
  match c.toNat with
  | 0 => .a
  | _ => .b

/-- R92. -/
def updnCode : UpDn → BitVec 3
  | .unchanged => 0b000
  | .increase => 0b110
  | .decrease => 0b011

/-- R92; codes 001, 010, 100, 101 and 111 have no name (R73). -/
def updnOf (c : BitVec 3) : Option UpDn :=
  match c.toNat with
  | 0 => some .unchanged
  | 6 => some .increase
  | 3 => some .decrease
  | _ => none

/-! ### Decoder -/

/-- A field of port type code-w or word32: exactly `w` bits, most significant first (R71). -/
def readField (w : Nat) (f : Bits) : Option (BitVec w) :=
  if f.length = w then some (BitVec.ofNat w (valOf f)) else none

/-- A field of port type "1 bit" (R71). -/
def readFlag : Bits → Option Bool
  | [b] => some b
  | _ => none

/-- SELECT's fields in the order of R71. A record the port cannot carry is turned away before its codes are looked at. -/
def decodeSelect : List Bits → Except DecodeError Instr
  | [target, action, memBank, pointer, length, mask, trunc] =>
    match readField 3 target, readField 32 action, readField 2 memBank, readField 32 pointer, readField 32 length,
        readFlag trunc with
    | some t, some a, some b, some p, some l, some x =>
      if maskFits mask.length then
        match selectTargetOf t with
        | some target => .ok (.select target a (memBankOf b) p l mask x)
        | none => .error .unnamedCode
      else .error .maskTooLong
    | _, _, _, _, _, _ => .error .fieldsNotOfKind
  | _ => .error .fieldsNotOfKind

/-- QUERY's fields in the order of R71. -/
def decodeQuery : List Bits → Except DecodeError Instr
  | [dr, miller, trext, sel, session, target, q] =>
    match readField 1 dr, readField 2 miller, readFlag trext, readField 2 sel, readField 2 session, readField 1 target,
        readField 32 q with
    | some d, some m, some x, some s, some n, some g, some q =>
      match selOf s with
      | some sel => .ok (.query (drOf d) (millerOf m) x sel (sessionOf n) (invTargetOf g) q)
      | none => .error .unnamedCode
    | _, _, _, _, _, _, _ => .error .fieldsNotOfKind
  | _ => .error .fieldsNotOfKind

/-- QUERYREP's field (R71). -/
def decodeQueryrep : List Bits → Except DecodeError Instr
  | [session] =>
    match readField 2 session with
    | some n => .ok (.queryrep (sessionOf n))
    | none => .error .fieldsNotOfKind
  | _ => .error .fieldsNotOfKind

/-- QUERYADJUST's fields in the order of R71. -/
def decodeQueryadjust : List Bits → Except DecodeError Instr
  | [session, updn] =>
    match readField 2 session, readField 3 updn with
    | some n, some u =>
      match updnOf u with
      | some updn => .ok (.queryadjust (sessionOf n) updn)
      | none => .error .unnamedCode
    | _, _ => .error .fieldsNotOfKind
  | _ => .error .fieldsNotOfKind

/-- ACK's field (R71, R93). -/
def decodeAck : List Bits → Except DecodeError Instr
  | [rn16] =>
    match readField 16 rn16 with
    | some r => .ok (.ack r)
    | none => .error .fieldsNotOfKind
  | _ => .error .fieldsNotOfKind

/-- CONFIGURE's fields in the order of R71. -/
def decodeConfigure : List Bits → Except DecodeError Instr
  | [samplingRate, pulseWidthDivisor] =>
    match readField 32 samplingRate, readField 32 pulseWidthDivisor with
    | some r, some p => .ok (.configure r p)
    | _, _ => .error .fieldsNotOfKind
  | _ => .error .fieldsNotOfKind

/-- The request a record carries (R70 to R73). Kinds 6 and 7 name no request whatever fields stand beside them (R204). -/
def decode (r : Request) : Except DecodeError Instr :=
  match r.reqKind.toNat with
  | 0 => decodeSelect r.fields
  | 1 => decodeQuery r.fields
  | 2 => decodeQueryrep r.fields
  | 3 => decodeQueryadjust r.fields
  | 4 => decodeAck r.fields
  | 5 => decodeConfigure r.fields
  | 6 => .ok .reserved6
  | _ => .ok .reserved7

/-! ### Encoder -/

/-- The record of a request (R70, R71). -/
def encode : Instr → Request
  | .select target action memBank pointer length mask trunc =>
    ⟨0, [wordBits (selectTargetCode target), wordBits action, wordBits (memBankCode memBank), wordBits pointer,
      wordBits length, mask, [trunc]]⟩
  | .query dr miller trext sel session target q =>
    ⟨1, [wordBits (drCode dr), wordBits (millerCode miller), [trext], wordBits (selCode sel),
      wordBits (sessionCode session), wordBits (invTargetCode target), wordBits q]⟩
  | .queryrep session => ⟨2, [wordBits (sessionCode session)]⟩
  | .queryadjust session updn => ⟨3, [wordBits (sessionCode session), wordBits (updnCode updn)]⟩
  | .ack rn16 => ⟨4, [wordBits rn16]⟩
  | .configure samplingRate pulseWidthDivisor => ⟨5, [wordBits samplingRate, wordBits pulseWidthDivisor]⟩
  | .reserved6 => ⟨6, []⟩
  | .reserved7 => ⟨7, []⟩

/-! ### The numbering of spec/opcode_table.json -/

/-- The `req_kind` of the opcode-table row whose fixed bits stand in the low bits of `w`: the frame header for the five
command rows, the kind code itself for the others, each read as one number as the table reads it. A row with more fixed
bits is tried first, since the rows of fewer bits also match some of its words (log entry 8). -/
def tableKind (w : Nat) : Option (BitVec 3) :=
  if w % 16 = 0b1010 then some 0
  else if w % 16 = 0b1000 then some 1
  else if w % 16 = 0b1001 then some 3
  else if w % 8 = 0b101 then some 5
  else if w % 8 = 0b110 then some 6
  else if w % 8 = 0b111 then some 7
  else if w % 4 = 0b00 then some 2
  else if w % 4 = 0b01 then some 4
  else none

/-- The fields of a kind (R71) with every bit 0; the mask is empty. -/
def zeroFields (kind : BitVec 3) : List Bits :=
  match kind.toNat with
  | 0 => [bitsOfNat 3 0, bitsOfNat 32 0, bitsOfNat 2 0, bitsOfNat 32 0, bitsOfNat 32 0, [], [false]]
  | 1 => [bitsOfNat 1 0, bitsOfNat 2 0, [false], bitsOfNat 2 0, bitsOfNat 2 0, bitsOfNat 1 0, bitsOfNat 32 0]
  | 2 => [bitsOfNat 2 0]
  | 3 => [bitsOfNat 2 0, bitsOfNat 3 0]
  | 4 => [bitsOfNat 16 0]
  | 5 => [bitsOfNat 32 0, bitsOfNat 32 0]
  | _ => []

/-- The request record of a table word: its row's kind and zero fields, for the table gives the fields no bits. A word of
no row gives a record with no field, which the decoder refuses. -/
def tableRequest (nbits w : Nat) : Request :=
  match tableKind (w % 2 ^ nbits) with
  | some kind => ⟨kind, zeroFields kind⟩
  | none => ⟨0, []⟩

/-- The instruction the decoder reads from a table word. -/
def decodeTableWord (nbits w : Nat) : Option Instr :=
  match decode (tableRequest nbits w) with
  | .ok i => some i
  | .error _ => none

end Sys2Proof
end

