-- ==== Sys2Proof/Machine/Crc.lean ====
section
/-! DEFINITION. The CRC unit (spec/41_crc.md R110 to R117). The constants are general knowledge in the spec too (D21; log
entry 10). -/

namespace Sys2Proof.Machine

/-- One bit into the CRC-5 register: polynomial x^5 + x^3 + 1 (R112). -/
def crc5Step (c : BitVec 5) (b : Bool) : BitVec 5 :=
  let shifted := c <<< 1
  if (c.getLsbD 4 ^^ b) then shifted ^^^ 0b01001#5 else shifted

/-- The CRC-5 register after the bits `b`, from the preset 01001 (R112). -/
def crc5Register (b : Bits) : BitVec 5 :=
  b.foldl crc5Step 0b01001#5

/-- `crc5` (R112): register bit 4 first, no final inversion (R114). -/
def crc5 (b : Bits) : Bits :=
  wordBits (crc5Register b)

/-- One bit into the CRC-16 register: polynomial x^16 + x^12 + x^5 + 1 (R113). -/
def crc16Step (c : BitVec 16) (b : Bool) : BitVec 16 :=
  let shifted := c <<< 1
  if (c.getLsbD 15 ^^ b) then shifted ^^^ 0x1021#16 else shifted

/-- The CRC-16 register after the bits `b`, from the preset 0xFFFF, before the final complement (R113). -/
def crc16Register (b : Bits) : BitVec 16 :=
  b.foldl crc16Step 0xFFFF#16

/-- `crc16` (R113): the ones' complement of the register, bit 15 first (R114). -/
def crc16 (b : Bits) : Bits :=
  wordBits (crc16Register b ^^^ 0xFFFF#16)

end Sys2Proof.Machine
end

