-- ==== Sys2Proof/Machine/Ebv.lean ====
section
/-! DEFINITION. The EBV packer (spec/40_ebv.md R100 to R105), for every input length, and the inverse that R102 states for
test purposes (it is no part of the block). -/

namespace Sys2Proof.Machine

/-- The number of 7-bit blocks for an input of length `len` (R100): one for the empty input (R103, C3). -/
def ebvBlockCount (len : Nat) : Nat :=
  max 1 ((len + 6) / 7)

/-- `k` blocks of 8 bits: an extension bit, 1 on every block but the last, and the next 7 bits of `p` (R100, R102). -/
def ebvBlocks : Nat → Bits → Bits
  | 0, _ => []
  | k + 1, p => decide (0 < k) :: (p.take 7 ++ ebvBlocks k (p.drop 7))

/-- `ebv_encode` (R100). -/
def ebvEncode (b : Bits) : Bits :=
  let k := ebvBlockCount b.length
  ebvBlocks k (List.replicate (7 * k - b.length) false ++ b)

/-- The payload bits of an EBV field read block by block until the first extension bit 0 (R102); `fuel` bounds the number
of blocks read, and a field that ends early gives `none`. -/
def ebvPayload : Nat → Bits → Option Bits
  | 0, _ => none
  | fuel + 1, s =>
    match s with
    | ext :: rest =>
      if rest.length < 7 then none
      else if ext then
        match ebvPayload fuel (rest.drop 7) with
        | some more => some (rest.take 7 ++ more)
        | none => none
      else some (rest.take 7)
    | [] => none

/-- `ebv_decode` of R102 for an original length `len`: the payloads less the padding in front. -/
def ebvDecode (len : Nat) (s : Bits) : Option Bits :=
  match ebvPayload s.length s with
  | some payload => some (payload.drop (payload.length - len))
  | none => none

end Sys2Proof.Machine
end

