-- ==== Sys2Proof/Machine/Pie.lean ====
section
/-! DEFINITION. The PIE modulator's arithmetic and shapes (spec/42_pie.md R131 to R138): sample counts as exact rationals
truncated toward zero (R8, D8), and the template. -/

namespace Sys2Proof.Machine

/-- `trunc(k * P * R / 10^6)` (R131). -/
def symbolCount (k : Int) (R P : Int) : Int :=
  Int.tdiv (k * P * R) 1000000

/-- `n_pw` (R131). -/
def pulseCount (R P : Int) : Int := symbolCount 1 R P

/-- `n_data0` (R131). -/
def data0Count (R P : Int) : Int := symbolCount 2 R P

/-- `n_data1` (R131). -/
def data1Count (R P : Int) : Int := symbolCount 4 R P

/-- `n_rtcal` (R131). -/
def rtcalCount (R P : Int) : Int := symbolCount 6 R P

/-- `n_delim` (R132). -/
def delimCount (R : Int) : Int :=
  Int.tdiv (Config.delimUs * R) 1000000

/-- `n_trcal(dr, blf) = trunc(dr * R / blf)` for the exact rational rate `dr` (R133). -/
def trcalCount (dr : Rate) (blf : Int) (R : Int) : Int :=
  Int.tdiv (dr.num * R) (dr.den * blf)

/-- The TR-cal count of the block's `N_TRCAL8` (R133). -/
def trcal8Count (R : Int) : Int := trcalCount Config.rate8 Config.blfHz R

/-- The TR-cal count of the block's `N_TRCAL643` (R133). -/
def trcal643Count (R : Int) : Int := trcalCount Config.rate643 Config.blfHz R

/-- A count as its register holds it, 64 bits (R21, D26). -/
def toCount (n : Int) : Count :=
  BitVec.ofInt 64 n

/-- `T(n) = 1^(n - n_pw) ++ 0^(n_pw)` for `n >= n_pw` (R136). -/
def pulseTemplate (pw n : Nat) : Samples :=
  List.replicate (n - pw) true ++ List.replicate pw false

/-- The delimiter: `n_delim` samples at level 0 (R138, D9). -/
def delimiterShape (n : Nat) : Samples :=
  List.replicate n false

end Sys2Proof.Machine
end

