-- ==== Sys2Proof/Machine/Operands.lean ====
section
/-! DEFINITION. How each request field becomes frame bits (spec/30_encoding.md R80 to R93). -/

namespace Sys2Proof.Machine

/-- A word32 field read as a signed integer and cut to a `w`-bit frame field, with no error (R72, R209). -/
def truncatedField (w : Nat) (x : Word) : Bits :=
  bitsW w x.toInt

/-- Select `action`, 3 bits (R81). -/
def actionField (action : Word) : Bits := truncatedField 3 action

/-- Select pointer: `bits_32(pointer)` through the EBV packer, 40 bits (R83, R105). -/
def pointerField (pointer : Word) : Bits := ebvEncode (truncatedField 32 pointer)

/-- Select `length`, 8 bits (R84). -/
def lengthField (length : Word) : Bits := truncatedField 8 length

/-- Query `q`, 4 bits (R91). -/
def qField (q : Word) : Bits := truncatedField 4 q

/-- Ack `rn16`, bit 15 first (R93). -/
def rn16Field (rn16 : BitVec 16) : Bits := wordBits rn16

/-- The rate value Query gives the preamble, not the encoded bit (R85, R140). -/
def rateOf : DivideRatio → Rate
  | .dr8 => Config.rate8
  | .dr643 => Config.rate643

end Sys2Proof.Machine
end

