-- ==== Sys2Proof/Machine/Frame.lean ====
section
/-! DEFINITION. The five frames (spec/30_encoding.md R75 to R79; spec/43_commands.md R170 to R174): fields in order, most
significant bit first, no gaps (R53), then the CRC over the whole command part (R111). -/

namespace Sys2Proof.Machine

/-- Select's command bits (R75, R170). -/
def selectBits (target : SelectTarget) (action : Word) (memBank : MemBank) (pointer length : Word) (mask : Bits)
    (trunc : Bool) : Bits :=
  wordBits 0b1010#4 ++ wordBits (selectTargetCode target) ++ actionField action ++ wordBits (memBankCode memBank) ++
    pointerField pointer ++ lengthField length ++ mask ++ [trunc]

/-- Select's frame: command bits and CRC-16 (R75, R170). -/
def selectFrame (target : SelectTarget) (action : Word) (memBank : MemBank) (pointer length : Word) (mask : Bits)
    (trunc : Bool) : Bits :=
  let cmd := selectBits target action memBank pointer length mask trunc
  cmd ++ crc16 cmd

/-- Query's command bits, 17 of them (R76, R171, C1). -/
def queryBits (dr : DivideRatio) (miller : Miller) (trext : Bool) (sel : Sel) (session : Session) (target : InvTarget)
    (q : Word) : Bits :=
  wordBits 0b1000#4 ++ wordBits (drCode dr) ++ wordBits (millerCode miller) ++ [trext] ++ wordBits (selCode sel) ++
    wordBits (sessionCode session) ++ wordBits (invTargetCode target) ++ qField q

/-- Query's frame: command bits and CRC-5 (R76, R171). -/
def queryFrame (dr : DivideRatio) (miller : Miller) (trext : Bool) (sel : Sel) (session : Session) (target : InvTarget)
    (q : Word) : Bits :=
  let cmd := queryBits dr miller trext sel session target q
  cmd ++ crc5 cmd

/-- QueryRep's frame (R77, R172). -/
def queryrepFrame (session : Session) : Bits :=
  wordBits 0b00#2 ++ wordBits (sessionCode session)

/-- QueryAdjust's frame (R78, R173). -/
def queryadjustFrame (session : Session) (updn : UpDn) : Bits :=
  wordBits 0b1001#4 ++ wordBits (sessionCode session) ++ wordBits (updnCode updn)

/-- Ack's frame (R79, R174). -/
def ackFrame (rn16 : BitVec 16) : Bits :=
  wordBits 0b01#2 ++ rn16Field rn16

end Sys2Proof.Machine
end

