-- ==== Sys2Proof/Machine/State.lean ====
section
/-! DEFINITION. The state of the block: the ten elements of spec/10_state.md R21, and what stands at its ports (R31). -/

namespace Sys2Proof.Machine

/-- `MODE`, the block's only flag (R22). -/
inductive Mode where
  | unconfigured | ready
  deriving DecidableEq, Repr

/-- The status of a response (R201). -/
inductive Status where
  | ok | maskLengthMismatch | configInvalid | notConfigured | illegalRequest
  deriving DecidableEq, Repr

/-- One response (R33): its status and its samples; the sample count of R31 is their number. -/
structure Response where
  status : Status
  samples : Samples
  deriving DecidableEq, Repr

/-- What an outside agent presents to the block: a reset pulse on `rst` (R37) or one request record (R32). -/
inductive PortEvent where
  | reset
  | request (r : Request)
  deriving DecidableEq, Repr

/-- The seven count registers, by name (R25). -/
inductive CountReg where
  | nPw | nData0 | nData1 | nDelim | nRtcal | nTrcal8 | nTrcal643
  deriving DecidableEq, Repr

/-- Why the machine stops with a fault. -/
inductive Fault where
  /-- A command in `MODE = READY` reads a count register that holds `⊥`: raised by the register read of Ops. The spec's own
  treatment is `fault`, and no run reaches it (I6, R9). Safe. -/
  | readOfNoValue (reg : CountReg)
  /-- A command in `MODE = READY` needs the template `T(n)` with `n < n_pw`, which R136 says is never formed: raised by the
  template read of Ops, and no run reaches it (R135). Safe. -/
  | templateShorterThanPulse (reg : CountReg)
  deriving DecidableEq, Repr

/-- Why a step gives no meaning to what is presented. -/
inductive Refusal where
  /-- No meaning written yet: raised only by an arm of `exec`. Safe. -/
  | notModelled (mnemonic : String)
  /-- The record's fields are not those of its kind (R71): raised by the step, for a record no port of the block can
  carry. Safe. -/
  | fieldsNotOfKind
  /-- The record's mask is longer than `MASK_MAX` (R71): raised by the step, for a record this block's port cannot
  carry. Safe. -/
  | maskTooLong
  deriving DecidableEq, Repr

/-- The state. In the eight registers that the spec lets hold no value, `none` is the spec's own `⊥` (R9, R21), which
reset gives and a failed CONFIGURE writes (R130, R230; log entry 1). -/
structure State where
  /-- `MODE` (R22). -/
  mode : Mode
  /-- `CFG_FS`, the sampling rate (R23). -/
  cfgFs : Option Word
  /-- `CFG_P`, the pulse-width divisor (R24). -/
  cfgP : Word
  /-- `N_PW` (R25). -/
  nPw : Option Count
  /-- `N_DATA0` (R25). -/
  nData0 : Option Count
  /-- `N_DATA1` (R25). -/
  nData1 : Option Count
  /-- `N_DELIM` (R25). -/
  nDelim : Option Count
  /-- `N_RTCAL` (R25). -/
  nRtcal : Option Count
  /-- `N_TRCAL8` (R25, R26). -/
  nTrcal8 : Option Count
  /-- `N_TRCAL643` (R25, R26). -/
  nTrcal643 : Option Count
  /-- What is presented at `rst` and at the request port and not yet taken, next first (R34, R37, R60; log entry 5). -/
  inputs : List PortEvent
  /-- What the response port and the sample output have given, first response first (R33, R35; log entry 6). -/
  responses : List Response
  deriving DecidableEq, Repr

/-- The state after reset (R230), with nothing presented and nothing given yet (log entries 5 and 6). -/
def State.reset : State where
  mode := .unconfigured
  cfgFs := none
  cfgP := BitVec.ofNat 32 Config.pDefault
  nPw := none
  nData0 := none
  nData1 := none
  nDelim := none
  nRtcal := none
  nTrcal8 := none
  nTrcal643 := none
  inputs := []
  responses := []

end Sys2Proof.Machine
end

