-- ==== Sys2Proof/Machine/Flags.lean ====
section
/-! DEFINITION. The block's only flag is `MODE` (spec/10_state.md R22); what decides it is the configuration validity of
spec/42_pie.md R134. The status codes of a response (spec/60_exceptions.md R201). -/

namespace Sys2Proof.Machine

/-- `valid(R, P)` (R134). -/
def configValid (R P : Int) : Bool :=
  decide (1 ≤ R) && decide (1 ≤ P) && decide (1 ≤ pulseCount R P) && decide (1 ≤ delimCount R) &&
    decide (pulseCount R P < trcal8Count R)

/-- The value of the `MODE` bit (R21). -/
def Mode.code : Mode → BitVec 1
  | .unconfigured => 0
  | .ready => 1

/-- The 3-bit status code on the response port (R201). -/
def Status.code : Status → BitVec 3
  | .ok => 0
  | .maskLengthMismatch => 1
  | .configInvalid => 2
  | .notConfigured => 3
  | .illegalRequest => 4

end Sys2Proof.Machine
end

