-- ==== Sys2Proof/Machine/Ops.lean ====
section
/-! DEFINITION. The operations the meanings share: giving a response, ending a request with an error status (the block's
only exception, spec/60_exceptions.md R203, R210), the mode check, reading count registers and templates, rendering
framing and data symbols (spec/42_pie.md R136 to R141), taking what is presented at the ports, and reset. -/

namespace Sys2Proof.Machine

/-! ### Responses -/

/-- `respond(status, samples)` of R9: one response leaves the block, after those before it (R33, R35). -/
def State.respond (s : State) (status : Status) (samples : Samples) : State :=
  { s with responses := s.responses ++ [⟨status, samples⟩] }

/-- `raise <Error>()` of R9: the request ends with the error status and no samples, and no state is written (R202, R203). -/
def State.raise (s : State) (status : Status) : State :=
  s.respond status []

/-- The sample output: the samples of the responses in order, with none between (R35). -/
def State.sampleOutput (s : State) : Samples :=
  s.responses.flatMap Response.samples

/-- Every command reads `MODE` first: in `UNCONFIGURED` it ends with `NOT_CONFIGURED` (R22, R34, R205). -/
def whenReady (s : State) (body : Host.Outcome State Fault Refusal) : Host.Outcome State Fault Refusal :=
  match s.mode with
  | .unconfigured => .next (s.raise .notConfigured)
  | .ready => body

/-! ### Registers -/

/-- The count register of that name. -/
def State.countReg (s : State) : CountReg → Option Count
  | .nPw => s.nPw
  | .nData0 => s.nData0
  | .nData1 => s.nData1
  | .nDelim => s.nDelim
  | .nRtcal => s.nRtcal
  | .nTrcal8 => s.nTrcal8
  | .nTrcal643 => s.nTrcal643

/-- The read of a count register: a register that holds `⊥` gives the fault of I6 (R9). -/
def readCount (s : State) (reg : CountReg) : Except Fault Nat :=
  match s.countReg reg with
  | some c => .ok c.toNat
  | none => .error (.readOfNoValue reg)

/-! ### Templates and rendering -/

/-- The template `T(n)` for the count register `reg` (R136, R137); with `n < n_pw` it is never formed (R136). -/
def readTemplate (s : State) (reg : CountReg) : Except Fault Samples :=
  match readCount s .nPw, readCount s reg with
  | .ok pw, .ok n => if pw ≤ n then .ok (pulseTemplate pw n) else .error (.templateShorterThanPulse reg)
  | .error f, _ => .error f
  | .ok _, .error f => .error f

/-- The delimiter (R138). -/
def readDelimiter (s : State) : Except Fault Samples :=
  match readCount s .nDelim with
  | .ok n => .ok (delimiterShape n)
  | .error f => .error f

/-- Concatenation of two rendered segments, the first fault first. -/
def joinSegments (a b : Except Fault Samples) : Except Fault Samples :=
  match a, b with
  | .ok x, .ok y => .ok (x ++ y)
  | .error f, _ => .error f
  | .ok _, .error f => .error f

/-- `frame_sync()` = delimiter, data-0, RT-cal (R139). -/
def frameSync (s : State) : Except Fault Samples :=
  joinSegments (joinSegments (readDelimiter s) (readTemplate s .nData0)) (readTemplate s .nRtcal)

/-- The register that holds TR-cal's count at `BLF_HZ` for a divide ratio (R26, R137). -/
def trcalReg : DivideRatio → CountReg
  | .dr8 => .nTrcal8
  | .dr643 => .nTrcal643

/-- `preamble(BLF_HZ, dr)` = frame-sync, TR-cal (R140). -/
def preamble (s : State) (dr : DivideRatio) : Except Fault Samples :=
  joinSegments (frameSync s) (readTemplate s (trcalReg dr))

/-- Each bit as its symbol, in input order (R141). -/
def symbols (data0 data1 : Samples) (b : Bits) : Samples :=
  b.flatMap fun x => if x then data1 else data0

/-- `encode(b)` with the templates of the current profile (R141). -/
def encodeSymbols (s : State) (b : Bits) : Except Fault Samples :=
  match readTemplate s .nData0, readTemplate s .nData1 with
  | .ok data0, .ok data1 => .ok (symbols data0 data1 b)
  | .error f, _ => .error f
  | .ok _, .error f => .error f

/-- `emit framing ++ encode(frame)` (R160): status OK and the whole waveform (R33), no state written (R163). -/
def emitFrame (s : State) (framing : Except Fault Samples) (frame : Bits) : Host.Outcome State Fault Refusal :=
  match joinSegments framing (encodeSymbols s frame) with
  | .ok waveform => .next (s.respond .ok waveform)
  | .error f => .fault f

/-! ### Ports -/

/-- What the block takes next. -/
inductive Taken where
  /-- Nothing is presented. -/
  | idle
  /-- A reset pulse, and the state with it taken. -/
  | reset (s : State)
  /-- A request record, and the state with it taken. -/
  | request (r : Request) (s : State)
  deriving DecidableEq, Repr

/-- Takes the next thing presented, in presentation order (R34, R59). -/
def takeInput (s : State) : Taken :=
  match s.inputs with
  | [] => .idle
  | .reset :: rest => .reset { s with inputs := rest }
  | .request r :: rest => .request r { s with inputs := rest }

/-- Presents a record as the next thing the block takes. -/
def State.present (s : State) (r : Request) : State :=
  { s with inputs := .request r :: s.inputs }

/-- Reset (R37, R230, R231): every state element to its reset value, no response; what is presented next and what has
left the block are outside it and stay (log entries 5 and 6). -/
def State.takeReset (s : State) : State :=
  { State.reset with inputs := s.inputs, responses := s.responses }

/-- What happens to a record the decoder turns away: an unnamed code ends the request with `ILLEGAL_REQUEST`, before
`MODE` is looked at (R34, R204, R208); a record no port of the block can carry is refused by name (log entry 3). -/
def turnAway (e : DecodeError) (s : State) : Host.Outcome State Fault Refusal :=
  match e with
  | .unnamedCode => .next (s.raise .illegalRequest)
  | .fieldsNotOfKind => .refused .fieldsNotOfKind
  | .maskTooLong => .refused .maskTooLong

end Sys2Proof.Machine
end

