-- ==== Sys2Proof/Machine/Commands.lean ====
section
/-! DEFINITION. The five commands (spec/43_commands.md R170 to R174). -/

namespace Sys2Proof.Machine

/-- SELECT (R170): `mask_len` against the untruncated signed `length` (R206, D7), then the frame with frame-sync. -/
def execSelect (target : SelectTarget) (action : Word) (memBank : MemBank) (pointer length : Word) (mask : Bits)
    (trunc : Bool) (s : State) : Host.Outcome State Fault Refusal :=
  whenReady s
    (if (mask.length : Int) = length.toInt then
      emitFrame s (frameSync s) (selectFrame target action memBank pointer length mask trunc)
    else .next (s.raise .maskLengthMismatch))

/-- QUERY (R171): the one command with the preamble. -/
def execQuery (dr : DivideRatio) (miller : Miller) (trext : Bool) (sel : Sel) (session : Session) (target : InvTarget)
    (q : Word) (s : State) : Host.Outcome State Fault Refusal :=
  whenReady s (emitFrame s (preamble s dr) (queryFrame dr miller trext sel session target q))

/-- QUERYREP (R172). -/
def execQueryrep (session : Session) (s : State) : Host.Outcome State Fault Refusal :=
  whenReady s (emitFrame s (frameSync s) (queryrepFrame session))

/-- QUERYADJUST (R173). -/
def execQueryadjust (session : Session) (updn : UpDn) (s : State) : Host.Outcome State Fault Refusal :=
  whenReady s (emitFrame s (frameSync s) (queryadjustFrame session updn))

/-- ACK (R174). -/
def execAck (rn16 : BitVec 16) (s : State) : Host.Outcome State Fault Refusal :=
  whenReady s (emitFrame s (frameSync s) (ackFrame rn16))

end Sys2Proof.Machine
end

