-- ==== Sys2Proof/Machine/Configure.lean ====
section
/-! DEFINITION. CONFIGURE (spec/42_pie.md R130). -/

namespace Sys2Proof.Machine

/-- A successful CONFIGURE's writes: every element of R21 at once (R25, R28, R130). -/
def State.configured (s : State) (samplingRate pulseWidthDivisor : Word) : State :=
  let R := samplingRate.toInt
  let P := pulseWidthDivisor.toInt
  { s with
    mode := .ready
    cfgFs := some samplingRate
    cfgP := pulseWidthDivisor
    nPw := some (toCount (pulseCount R P))
    nData0 := some (toCount (data0Count R P))
    nData1 := some (toCount (data1Count R P))
    nDelim := some (toCount (delimCount R))
    nRtcal := some (toCount (rtcalCount R P))
    nTrcal8 := some (toCount (trcal8Count R))
    nTrcal643 := some (toCount (trcal643Count R)) }

/-- A failed CONFIGURE's writes: `MODE` to UNCONFIGURED, `CFG_FS` and the counts to `⊥`; `CFG_P` keeps its value (R130,
D11). -/
def State.unconfigured (s : State) : State :=
  { s with
    mode := .unconfigured
    cfgFs := none
    nPw := none
    nData0 := none
    nData1 := none
    nDelim := none
    nRtcal := none
    nTrcal8 := none
    nTrcal643 := none }

/-- CONFIGURE (R130): in any mode, any number of times (D28); its response never has samples (R33, D16). -/
def execConfigure (samplingRate pulseWidthDivisor : Word) (s : State) : Host.Outcome State Fault Refusal :=
  if configValid samplingRate.toInt pulseWidthDivisor.toInt then
    .next ((s.configured samplingRate pulseWidthDivisor).respond .ok [])
  else .next (s.unconfigured.raise .configInvalid)

end Sys2Proof.Machine
end

