-- ==== Sys2Proof/Machine/Reserved.lean ====
section
/-! DEFINITION. The two reserved request kinds (spec/60_exceptions.md R204): checked before `MODE` (R208). -/

namespace Sys2Proof.Machine

/-- `req_kind` 6 (R204). -/
def execReserved6 (s : State) : Host.Outcome State Fault Refusal :=
  .next (s.raise .illegalRequest)

/-- `req_kind` 7 (R204). -/
def execReserved7 (s : State) : Host.Outcome State Fault Refusal :=
  .next (s.raise .illegalRequest)

end Sys2Proof.Machine
end

