-- ==== Sys2Proof/Machine/Dispatch.lean ====
section
/-! DEFINITION. One arm per constructor of Instr, each a direct call of its meaning. -/

namespace Sys2Proof.Machine

def exec (i : Instr) (s : State) : Host.Outcome State Fault Refusal :=
  match i with
  | .select target action memBank pointer length mask trunc => Sys2Proof.Machine.execSelect target action memBank pointer length mask trunc s
  | .query dr miller trext sel session target q => Sys2Proof.Machine.execQuery dr miller trext sel session target q s
  | .queryrep session => Sys2Proof.Machine.execQueryrep session s
  | .queryadjust session updn => Sys2Proof.Machine.execQueryadjust session updn s
  | .ack rn16 => Sys2Proof.Machine.execAck rn16 s
  | .configure samplingRate pulseWidthDivisor => Sys2Proof.Machine.execConfigure samplingRate pulseWidthDivisor s
  | .reserved6 => Sys2Proof.Machine.execReserved6 s
  | .reserved7 => Sys2Proof.Machine.execReserved7 s

end Sys2Proof.Machine
end

