-- ==== Sys2Proof/Machine/Step.lean ====
section
/-! DEFINITION. One step (spec/10_state.md R34, R37): the block takes the next thing presented at its ports, if any, and
performs it whole. -/

namespace Sys2Proof.Machine

/-- One step: with nothing presented the block rests (log entry 5); a reset pulse resets it (R37); a request record is
decoded and performed (R34). -/
def step (s : State) : Host.Outcome State Fault Refusal :=
  match takeInput s with
  | .idle => .next s
  | .reset taken => .next taken.takeReset
  | .request r taken =>
    match decode r with
    | .ok i => exec i taken
    | .error e => turnAway e taken

/-- `s` with the request of a word of spec/opcode_table.json presented next (log entries 7 and 8). -/
def State.withFetchWord (s : State) (nbits w : Nat) : State :=
  s.present (tableRequest nbits w)

end Sys2Proof.Machine
end

