-- ==== Sys2Proof/Machine/RequestText.lean ====
section
/-! DEFINITION. The textual request syntax of spec/30_encoding.md R96 and R97: one written line to what it presents at the
ports. It is the spec's way to write requests down (D23), no port of the block: `step` does not use it. Log entry 14 lists
what R96 leaves open. -/

namespace Sys2Proof.Machine

/-- The pieces of a line between the separators `c`. -/
def splitAtChar (c : Char) : List Char → List (List Char)
  | [] => [[]]
  | x :: xs =>
    if x = c then [] :: splitAtChar c xs
    else match splitAtChar c xs with
      | [] => [[x]]
      | piece :: pieces => (x :: piece) :: pieces

/-- A line without the spaces in front. -/
def skipSpaces (line : List Char) : List Char :=
  line.dropWhile (· = ' ')

/-- A written `field=value` pair. -/
def readPair (text : List Char) : List Char × List Char :=
  let text := skipSpaces text
  (text.takeWhile (· ≠ '='), (text.dropWhile (· ≠ '=')).drop 1)

/-- The values of the pairs, if their names are exactly `names` in this order (R96: the field order of R71). -/
def valuesOf (names : List String) (pairs : List (List Char × List Char)) : Option (List (List Char)) :=
  if pairs.map Prod.fst = names.map String.toList then some (pairs.map Prod.snd) else none

/-- A digit of base 10 or 16. -/
def readDigit (base : Nat) (c : Char) : Option Nat :=
  let n := c.toNat
  let digit :=
    if 48 ≤ n ∧ n ≤ 57 then some (n - 48)
    else if 65 ≤ n ∧ n ≤ 70 then some (n - 55)
    else if 97 ≤ n ∧ n ≤ 102 then some (n - 87)
    else none
  match digit with
  | some d => if d < base then some d else none
  | none => none

/-- Digits, the most significant first, after the value `acc`. -/
def readDigits (base : Nat) : Nat → List Char → Option Nat
  | acc, [] => some acc
  | acc, c :: cs =>
    match readDigit base c with
    | some d => readDigits base (base * acc + d) cs
    | none => none

/-- A natural number, decimal or hexadecimal with `0x` (R96). -/
def readNat : List Char → Option Nat
  | '0' :: 'x' :: c :: cs => readDigits 16 0 (c :: cs)
  | c :: cs => readDigits 10 0 (c :: cs)
  | [] => none

/-- An integer: a natural, or one with a minus sign in front (DESIGN CHOICE, log entry 14). -/
def readInt : List Char → Option Int
  | '-' :: cs =>
    match readNat cs with
    | some n => some (-(n : Int))
    | none => none
  | cs =>
    match readNat cs with
    | some n => some (n : Int)
    | none => none

/-- A written word32: an integer that 32 bits hold, as signed or as unsigned (DESIGN CHOICE, log entry 14). -/
def readWord32 (text : List Char) : Option Word :=
  match readInt text with
  | some v => if -(2 ^ 31) ≤ v ∧ v < 2 ^ 32 then some (BitVec.ofInt 32 v) else none
  | none => none

/-- A written `rn16`: "a 16-bit integer" (R96). That it is a number from 0 to 65535 and takes no minus sign is the model's
choice (DESIGN CHOICE, log entry 14). -/
def readRn16 (text : List Char) : Option (BitVec 16) :=
  match readNat text with
  | some v => if v < 2 ^ 16 then some (BitVec.ofNat 16 v) else none
  | none => none

/-- `true` or `false` (R96). -/
def readBoolean (text : List Char) : Option Bool :=
  if text = "true".toList then some true
  else if text = "false".toList then some false
  else none

/-- The bits written after `0b`. -/
def readBits : List Char → Option Bits
  | [] => some []
  | c :: cs =>
    match readBits cs with
    | some bits => if c = '0' then some (false :: bits) else if c = '1' then some (true :: bits) else none
    | none => none

/-- A written mask: `0b` and its bits in order, element 0 first, or `[]` for the empty mask (R96). -/
def readMask : List Char → Option Bits
  | '0' :: 'b' :: c :: cs => readBits (c :: cs)
  | ['[', ']'] => some []
  | _ => none

/-- The value a written name stands for. -/
def readName {α : Type} (table : List (String × α)) (text : List Char) : Option α :=
  match table.find? (fun entry => entry.1.toList = text) with
  | some entry => some entry.2
  | none => none

/-- Written names of Select's target (R80, R96). -/
def selectTargetNames : List (String × SelectTarget) :=
  [("INV_S0", .invS0), ("INV_S1", .invS1), ("INV_S2", .invS2), ("INV_S3", .invS3), ("SL", .sl)]

/-- Written names of the memory banks (R82). -/
def memBankNames : List (String × MemBank) :=
  [("FILE_TYPE", .fileType), ("EPC", .epc), ("TID", .tid), ("FILE_0", .file0)]

/-- Written names of the divide ratios (R85). -/
def drNames : List (String × DivideRatio) := [("DR_8", .dr8), ("DR_64_3", .dr643)]

/-- Written names of the Miller modes (R86). -/
def millerNames : List (String × Miller) := [("M1", .m1), ("M2", .m2), ("M4", .m4), ("M8", .m8)]

/-- Written names of Sel (R88). -/
def selNames : List (String × Sel) := [("ALL", .all), ("NOT_SL", .notSl), ("SL", .sl)]

/-- Written names of the sessions (R89). -/
def sessionNames : List (String × Session) := [("S0", .s0), ("S1", .s1), ("S2", .s2), ("S3", .s3)]

/-- Written names of Query's target (R90). -/
def invTargetNames : List (String × InvTarget) := [("A", .a), ("B", .b)]

/-- Written names of UpDn (R92). -/
def updnNames : List (String × UpDn) := [("UNCHANGED", .unchanged), ("INCREASE", .increase), ("DECREASE", .decrease)]

/-- A written SELECT. -/
def readSelect (pairs : List (List Char × List Char)) : Option Instr :=
  match valuesOf ["target", "action", "mem_bank", "pointer", "length", "mask", "trunc"] pairs with
  | some [t, a, b, p, l, m, x] =>
    match readName selectTargetNames t, readWord32 a, readName memBankNames b, readWord32 p, readWord32 l, readMask m,
        readBoolean x with
    | some t, some a, some b, some p, some l, some m, some x => some (.select t a b p l m x)
    | _, _, _, _, _, _, _ => none
  | _ => none

/-- A written QUERY. -/
def readQuery (pairs : List (List Char × List Char)) : Option Instr :=
  match valuesOf ["dr", "miller", "trext", "sel", "session", "target", "q"] pairs with
  | some [d, m, x, s, n, g, q] =>
    match readName drNames d, readName millerNames m, readBoolean x, readName selNames s, readName sessionNames n,
        readName invTargetNames g, readWord32 q with
    | some d, some m, some x, some s, some n, some g, some q => some (.query d m x s n g q)
    | _, _, _, _, _, _, _ => none
  | _ => none

/-- A written QUERYREP. -/
def readQueryrep (pairs : List (List Char × List Char)) : Option Instr :=
  match valuesOf ["session"] pairs with
  | some [n] =>
    match readName sessionNames n with
    | some n => some (.queryrep n)
    | none => none
  | _ => none

/-- A written QUERYADJUST. -/
def readQueryadjust (pairs : List (List Char × List Char)) : Option Instr :=
  match valuesOf ["session", "updn"] pairs with
  | some [n, u] =>
    match readName sessionNames n, readName updnNames u with
    | some n, some u => some (.queryadjust n u)
    | _, _ => none
  | _ => none

/-- A written ACK. -/
def readAck (pairs : List (List Char × List Char)) : Option Instr :=
  match valuesOf ["rn16"] pairs with
  | some [r] =>
    match readRn16 r with
    | some r => some (.ack r)
    | none => none
  | _ => none

/-- A written CONFIGURE; without a divisor it means 12 (R96, R97). -/
def readConfigure (pairs : List (List Char × List Char)) : Option Instr :=
  match valuesOf ["sampling_rate", "pulse_width_divisor"] pairs, valuesOf ["sampling_rate"] pairs with
  | some [r, p], _ =>
    match readWord32 r, readWord32 p with
    | some r, some p => some (.configure r p)
    | _, _ => none
  | _, some [r] =>
    match readWord32 r with
    | some r => some (Instr.configureDefault r)
    | none => none
  | _, _ => none

/-- A written request: its name, then its pairs separated by commas (R96). -/
def readRequest (line : List Char) : Option Instr :=
  let name := line.takeWhile (· ≠ ' ')
  let pairs := (splitAtChar ',' (line.dropWhile (· ≠ ' '))).map readPair
  if name = "SELECT".toList then readSelect pairs
  else if name = "QUERY".toList then readQuery pairs
  else if name = "QUERYREP".toList then readQueryrep pairs
  else if name = "QUERYADJUST".toList then readQueryadjust pairs
  else if name = "ACK".toList then readAck pairs
  else if name = "CONFIGURE".toList then readConfigure pairs
  else none

/-- What a written line presents at the ports: `RESET` alone is a reset pulse, any other line one request record (R96,
R97). -/
def readLine (line : List Char) : Option PortEvent :=
  if line = "RESET".toList then some .reset
  else match readRequest line with
    | some i => some (.request (encode i))
    | none => none

end Sys2Proof.Machine
end

