-- ==== Sys2Proof/Safety.lean ====
section
/-! DEFINITION. The terms the claims use: what a good state is, which parts of a state a claim compares, the shape of a
waveform as the rules write it, and where a waveform falls. -/

namespace Sys2Proof.Machine

/-- The ten elements of R21 stand as R22 to R26 say: in READY, CFG_FS and CFG_P are a valid pair and every register holds
what CONFIGURE writes for them; in UNCONFIGURED, CFG_FS and every count hold `⊥`. -/
def State.registersAgree (s : State) : Bool :=
  match s.mode, s.cfgFs with
  | .ready, some samplingRate =>
    configValid samplingRate.toInt s.cfgP.toInt && decide (s.configured samplingRate s.cfgP = s)
  | .unconfigured, none => decide (s.unconfigured = s)
  | .ready, none => false
  | .unconfigured, some _ => false

/-- What stands at the ports could have been presented there (R71): a reset pulse, or a record that decodes, or one whose
only flaw is an unnamed code. -/
def PortEvent.carriable : PortEvent → Bool
  | .reset => true
  | .request r =>
    match decode r with
    | .ok _ => true
    | .error .unnamedCode => true
    | .error .fieldsNotOfKind => false
    | .error .maskTooLong => false

/-- Everything presented is carriable. -/
def State.inputsCarriable (s : State) : Bool :=
  s.inputs.all PortEvent.carriable

end Sys2Proof.Machine

namespace Sys2Proof.Claims

open Sys2Proof.Machine

/-- The two states agree on the ten elements of R21. -/
structure SameRegisters (s t : State) : Prop where
  mode : s.mode = t.mode
  cfgFs : s.cfgFs = t.cfgFs
  cfgP : s.cfgP = t.cfgP
  nPw : s.nPw = t.nPw
  nData0 : s.nData0 = t.nData0
  nData1 : s.nData1 = t.nData1
  nDelim : s.nDelim = t.nDelim
  nRtcal : s.nRtcal = t.nRtcal
  nTrcal8 : s.nTrcal8 = t.nTrcal8
  nTrcal643 : s.nTrcal643 = t.nTrcal643

/-- The count a register holds; 0 for one that holds `⊥`, which a claim then excludes by its premises. -/
def held : Option Count → Nat
  | some c => c.toNat
  | none => 0

/-- `1^(n - n_pw) ++ 0^(n_pw)` with the counts the state's registers hold (R136). -/
def templateOf (s : State) (n : Option Count) : Samples :=
  List.replicate (held n - held s.nPw) true ++ List.replicate (held s.nPw) false

/-- Delimiter, data-0, RT-cal (R138, R139). -/
def frameSyncOf (s : State) : Samples :=
  List.replicate (held s.nDelim) false ++ templateOf s s.nData0 ++ templateOf s s.nRtcal

/-- The count register of TR-cal for a divide ratio (R137). -/
def trcalOf (s : State) : DivideRatio → Option Count
  | .dr8 => s.nTrcal8
  | .dr643 => s.nTrcal643

/-- Frame-sync and TR-cal (R140). -/
def preambleOf (s : State) (dr : DivideRatio) : Samples :=
  frameSyncOf s ++ templateOf s (trcalOf s dr)

/-- The symbol of a bit (R136, R141). -/
def symbolOf (s : State) (bit : Bool) : Samples :=
  if bit then templateOf s s.nData1 else templateOf s s.nData0

/-- A bit sequence as its symbols in order (R141). -/
def encodeOf (s : State) (b : Bits) : Samples :=
  b.flatMap (symbolOf s)

/-- The five commands (R70). -/
def isCommand : Instr → Bool
  | .select _ _ _ _ _ _ _ => true
  | .query _ _ _ _ _ _ _ => true
  | .queryrep _ => true
  | .queryadjust _ _ => true
  | .ack _ => true
  | .configure _ _ => false
  | .reserved6 => false
  | .reserved7 => false

/-- The command is one whose own check passes: a SELECT whose mask has `length` bits (R206), or any other command. -/
def isAccepted : Instr → Bool
  | .select _ _ _ _ length mask _ => decide ((mask.length : Int) = length.toInt)
  | .query _ _ _ _ _ _ _ => true
  | .queryrep _ => true
  | .queryadjust _ _ => true
  | .ack _ => true
  | .configure _ _ => false
  | .reserved6 => false
  | .reserved7 => false

/-- The widths of the fields of a request kind in the order of R71, with `maskLen` bits of mask; the reserved kinds have no
fields. -/
def fieldWidths (kind : BitVec 3) (maskLen : Nat) : List Nat :=
  match kind.toNat with
  | 0 => [3, 32, 2, 32, 32, maskLen, 1]
  | 1 => [1, 2, 1, 2, 2, 1, 32]
  | 2 => [2]
  | 3 => [2, 3]
  | 4 => [16]
  | 5 => [32, 32]
  | _ => []

/-- The frame of a command (R75 to R79); the other requests emit none. -/
def frameOf : Instr → Bits
  | .select target action memBank pointer length mask trunc =>
    selectFrame target action memBank pointer length mask trunc
  | .query dr miller trext sel session target q => queryFrame dr miller trext sel session target q
  | .queryrep session => queryrepFrame session
  | .queryadjust session updn => queryadjustFrame session updn
  | .ack rn16 => ackFrame rn16
  | .configure _ _ => []
  | .reserved6 => []
  | .reserved7 => []

/-- The framing of a command (R160): the preamble for QUERY, frame-sync for the other four. -/
def framingOf (s : State) : Instr → Samples
  | .query dr _ _ _ _ _ _ => preambleOf s dr
  | .select _ _ _ _ _ _ _ => frameSyncOf s
  | .queryrep _ => frameSyncOf s
  | .queryadjust _ _ => frameSyncOf s
  | .ack _ => frameSyncOf s
  | .configure _ _ => []
  | .reserved6 => []
  | .reserved7 => []

/-- The TR-cal samples in the framing of a command (R140, R161): QUERY alone has them. -/
def trcalSamples (s : State) : Instr → Nat
  | .query dr _ _ _ _ _ _ => held (trcalOf s dr)
  | .select _ _ _ _ _ _ _ => 0
  | .queryrep _ => 0
  | .queryadjust _ _ => 0
  | .ack _ => 0
  | .configure _ _ => 0
  | .reserved6 => 0
  | .reserved7 => 0

/-- The command with its truncated fields cut to the bits a frame carries of them: `action` to 3, `q` to 4 (R81, R91). -/
def canonical : Instr → Instr
  | .select target action memBank pointer length mask trunc =>
    .select target (BitVec.ofNat 32 (action.toNat % 8)) memBank pointer length mask trunc
  | .query dr miller trext sel session target q =>
    .query dr miller trext sel session target (BitVec.ofNat 32 (q.toNat % 16))
  | .queryrep session => .queryrep session
  | .queryadjust session updn => .queryadjust session updn
  | .ack rn16 => .ack rn16
  | .configure samplingRate pulseWidthDivisor => .configure samplingRate pulseWidthDivisor
  | .reserved6 => .reserved6
  | .reserved7 => .reserved7

/-- The header of a command (R74). -/
def headerOf : Instr → Bits
  | .select _ _ _ _ _ _ _ => [true, false, true, false]
  | .query _ _ _ _ _ _ _ => [true, false, false, false]
  | .queryrep _ => [false, false]
  | .queryadjust _ _ => [true, false, false, true]
  | .ack _ => [false, true]
  | .configure _ _ => []
  | .reserved6 => []
  | .reserved7 => []

/-- The status the checks of R208 give a record in a state, in their order. -/
def statusByPriority (s : State) (r : Request) : Status :=
  match decode r with
  | .error _ => .illegalRequest
  | .ok .reserved6 => .illegalRequest
  | .ok .reserved7 => .illegalRequest
  | .ok (.configure samplingRate pulseWidthDivisor) =>
    if configValid samplingRate.toInt pulseWidthDivisor.toInt then .ok else .configInvalid
  | .ok i =>
    match s.mode with
    | .unconfigured => .notConfigured
    | .ready => if isAccepted i then .ok else .maskLengthMismatch

/-- Whether the last CONFIGURE since the last reset in a list of events succeeded; `before` says it of what came before
the list (R22). -/
def lastConfigureSucceeded : Bool → List PortEvent → Bool
  | before, [] => before
  | _, .reset :: events => lastConfigureSucceeded false events
  | before, .request r :: events =>
    match decode r with
    | .ok (.configure samplingRate pulseWidthDivisor) =>
      lastConfigureSucceeded (configValid samplingRate.toInt pulseWidthDivisor.toInt) events
    | _ => lastConfigureSucceeded before events

/-- The indexes, counted from `start`, at which a waveform falls: a sample 0 right after a sample 1. `high` is the level of
the sample before the first. -/
def fallingEdges : Nat → Bool → Samples → List Nat
  | _, _, [] => []
  | start, high, x :: xs =>
    if high && !x then start :: fallingEdges (start + 1) x xs else fallingEdges (start + 1) x xs

/-- Where the symbols of `b` fall when their falling edges are one symbol length apart (R143): a symbol that starts at
`start` and has length `n` falls at `start + n - pw`, and the next starts at `start + n`. -/
def symbolEdges (pw data0 data1 : Nat) : Nat → Bits → List Nat
  | _, [] => []
  | start, bit :: b =>
    let n := if bit then data1 else data0
    (start + n - pw) :: symbolEdges pw data0 data1 (start + n) b

/-- How many of the events are request records. -/
def requestCount : List PortEvent → Nat
  | [] => 0
  | .reset :: events => requestCount events
  | .request _ :: events => requestCount events + 1

end Sys2Proof.Claims
end

