-- ==== Sys2Proof/Certificates/Slice0/Obligations.lean ====
section
/-! DEFINITION. The statements for the provers, one definition each, from the numbered rules of spec/. -/

open Sys2Proof Sys2Proof.Machine Sys2Proof.Claims

/-! ### Reset, ports and the step -/

/-- R230: what every state element of R21 holds after reset. -/
def Obligations.ResetRegistersHoldTheSpecifiedValues : Prop :=
  State.reset.mode = .unconfigured ∧ State.reset.cfgFs = none ∧ State.reset.cfgP = 12#32 ∧ State.reset.nPw = none ∧
    State.reset.nData0 = none ∧ State.reset.nData1 = none ∧ State.reset.nDelim = none ∧ State.reset.nRtcal = none ∧
    State.reset.nTrcal8 = none ∧ State.reset.nTrcal643 = none

/-- R230, R231, R37: a reset pulse in any state gives the reset values, no response and no samples, and takes nothing else
that is presented; two pulses in a row leave what one leaves. That what has left the block stays is the model's choice
(log entry 6). -/
def Obligations.ResetPulseRestoresTheResetRegisters : Prop :=
  ∀ (s : State) (rest : List PortEvent), s.inputs = .reset :: rest →
    ∃ t, step s = .next t ∧ SameRegisters t State.reset ∧ t.inputs = rest ∧ t.responses = s.responses ∧
      ∀ rest', rest = .reset :: rest' → step t = .next { t with inputs := rest' }

/-- R34: a step with a decodable request at the head of what is presented performs that request, with it taken. -/
def Obligations.StepPerformsTheDecodedRequest : Prop :=
  ∀ (s : State) (r : Request) (rest : List PortEvent) (i : Instr),
    s.inputs = .request r :: rest → decode r = .ok i → step s = exec i { s with inputs := rest }

/-- With nothing presented the block rests: the model's choice (log entry 5). -/
def Obligations.StepRestsWithNothingPresented : Prop :=
  ∀ s : State, s.inputs = [] → step s = .next s

/-- A record that no port of the block can carry is refused by name, the model's choice (log entry 3): a kind below 6 whose
fields are not those R71 gives it, in number or in any width but the mask's, and a SELECT whose fields are, but whose mask
is longer than MASK_MAX. -/
def Obligations.StepRefusesRecordsThePortCannotCarry : Prop :=
  (∀ (s : State) (r : Request) (rest : List PortEvent), s.inputs = .request r :: rest →
      r.reqKind.toNat < 6 → (∀ maskLen, r.fields.map List.length ≠ fieldWidths r.reqKind maskLen) →
      step s = .refused .fieldsNotOfKind) ∧
    (∀ (s : State) (rest : List PortEvent) (t : BitVec 3) (a p l : Word) (b : BitVec 2) (m : Bits) (x : Bool),
      s.inputs = .request ⟨0, [wordBits t, wordBits a, wordBits b, wordBits p, wordBits l, m, [x]]⟩ :: rest →
      Config.maskMax < m.length → step s = .refused .maskTooLong)

/-- R35: each step appends to the responses at most one, after all earlier ones, so the sample output only grows at its
end; over any number of steps there is one response for each request taken. That a step which takes a reset pulse keeps the
earlier responses, and so the samples that have left, is the model's choice (log entry 6). -/
def Obligations.ResponsesLeaveInRequestOrder : Prop :=
  (∀ s t : State, step s = .next t → ∃ w, t.sampleOutput = s.sampleOutput ++ w) ∧
    ∀ (k : Nat) (s t : State), Host.Core.run core k s = .next t →
      ∃ new, t.responses = s.responses ++ new ∧ new.length = requestCount (s.inputs.take k) ∧
        t.inputs = s.inputs.drop k

/-! ### Errors -/

/-- R204: a record of kind 6 or 7, whatever its fields, or with an unnamed code in a code-w field, ends with
ILLEGAL_REQUEST and no samples in every state, whatever MODE holds. -/
def Obligations.IllegalRequestsAreRefusedBeforeTheModeCheck : Prop :=
  ∀ (s : State) (r : Request) (rest : List PortEvent), s.inputs = .request r :: rest →
    (r.reqKind = 6 ∨ r.reqKind = 7 ∨
      (∃ (t : BitVec 3) (a p l : Word) (b : BitVec 2) (m : Bits) (x : Bool),
        r = ⟨0, [wordBits t, wordBits a, wordBits b, wordBits p, wordBits l, m, [x]]⟩ ∧ m.length ≤ Config.maskMax ∧
        (t = 0b101 ∨ t = 0b110 ∨ t = 0b111)) ∨
      (∃ (d g : BitVec 1) (m n : BitVec 2) (x : Bool) (q : Word),
        r = ⟨1, [wordBits d, wordBits m, [x], wordBits 0b01#2, wordBits n, wordBits g, wordBits q]⟩) ∨
      (∃ (n : BitVec 2) (u : BitVec 3), r = ⟨3, [wordBits n, wordBits u]⟩ ∧
        (u = 0b001 ∨ u = 0b010 ∨ u = 0b100 ∨ u = 0b101 ∨ u = 0b111))) →
    step s = .next { s with inputs := rest, responses := s.responses ++ [⟨.illegalRequest, []⟩] }

/-- R204: the two reserved kinds as instructions answer ILLEGAL_REQUEST in every state and change nothing else. -/
def Obligations.ReservedKindsAnswerIllegalRequest : Prop :=
  ∀ (s : State) (i : Instr), i = .reserved6 ∨ i = .reserved7 →
    exec i s = .next { s with responses := s.responses ++ [⟨.illegalRequest, []⟩] }

/-- R205: every command in MODE = UNCONFIGURED ends with NOT_CONFIGURED, a SELECT with a mismatched mask too; CONFIGURE
never does. -/
def Obligations.CommandsBeforeConfigurationAnswerNotConfigured : Prop :=
  (∀ (s : State) (i : Instr), isCommand i = true → s.mode = .unconfigured →
      exec i s = .next { s with responses := s.responses ++ [⟨.notConfigured, []⟩] }) ∧
    ∀ (s t : State) (R P : Word), exec (.configure R P) s = .next t →
      ∃ resp, t.responses = s.responses ++ [resp] ∧ resp.status ≠ .notConfigured

/-- R206: SELECT in READY with a mask that has not `length` bits, `length` read as a signed integer before any
truncation, ends with MASK_LENGTH_MISMATCH; and only such a SELECT does. -/
def Obligations.MaskLengthMismatchIsRaisedExactlyBySuchSelects : Prop :=
  (∀ (s : State) (g : SelectTarget) (a p l : Word) (b : MemBank) (m : Bits) (x : Bool), s.mode = .ready →
      (m.length : Int) ≠ l.toInt →
      exec (.select g a b p l m x) s = .next { s with responses := s.responses ++ [⟨.maskLengthMismatch, []⟩] }) ∧
    ∀ (s t : State) (i : Instr) (w : Samples), exec i s = .next t →
      t.responses = s.responses ++ [⟨.maskLengthMismatch, w⟩] →
      ∃ (g : SelectTarget) (a p l : Word) (b : MemBank) (m : Bits) (x : Bool),
        i = .select g a b p l m x ∧ (m.length : Int) ≠ l.toInt

/-- R207: CONFIG_INVALID is the answer of a CONFIGURE whose pair is not valid, and of nothing else. -/
def Obligations.ConfigInvalidIsRaisedExactlyByInvalidConfigures : Prop :=
  ∀ (s t : State) (i : Instr) (resp : Response), exec i s = .next t → t.responses = s.responses ++ [resp] →
    (resp.status = .configInvalid ↔
      ∃ R P : Word, i = .configure R P ∧ configValid R.toInt P.toInt = false)

/-- R208: from a good state a request that the port can carry gets exactly one response, whose status is that of the first
check that fails, in the order ILLEGAL_REQUEST, NOT_CONFIGURED, the request's own check. -/
def Obligations.EveryRequestReportsTheStatusOfTheFirstFailedCheck : Prop :=
  ∀ (s : State) (r : Request) (rest : List PortEvent), s.inputs = .request r :: rest → s.registersAgree = true →
    PortEvent.carriable (.request r) = true →
    ∃ t w, step s = .next t ∧ t.inputs = rest ∧ t.responses = s.responses ++ [⟨statusByPriority s r, w⟩]

/-- R203: a request that ends with an error status emits no samples and writes no state, with the one exception of a failed
CONFIGURE. -/
def Obligations.ErrorsEmitNoSamplesAndWriteNoState : Prop :=
  ∀ (s t : State) (r : Request) (rest : List PortEvent) (resp : Response), s.inputs = .request r :: rest →
    step s = .next t → t.responses = s.responses ++ [resp] → resp.status ≠ .ok →
    resp.samples = [] ∧ t.inputs = rest ∧
      (SameRegisters t s ∨ ∃ R P : Word, decode r = .ok (.configure R P) ∧ t.mode = .unconfigured)

/-- R201: the status codes; codes 5 to 7 stand for no status. -/
def Obligations.StatusCodesAreNumberedAsSpecified : Prop :=
  Status.ok.code = 0 ∧ Status.maskLengthMismatch.code = 1 ∧ Status.configInvalid.code = 2 ∧
    Status.notConfigured.code = 3 ∧ Status.illegalRequest.code = 4 ∧ ∀ status : Status, status.code.toNat < 5

/-! ### CONFIGURE and the timing profile -/

/-- R130, R134: CONFIGURE in any state. A pair is valid when `R >= 1`, `P >= 1`, `P * R >= 10^6`, `12 * R >= 10^6` and
`floor(P * R / 10^6) < floor(R / 5000)`; a valid pair writes all ten elements and answers OK, any other sets MODE to
UNCONFIGURED and CFG_FS and the counts to `⊥`, keeps CFG_P and answers CONFIG_INVALID. No samples either way. -/
def Obligations.ConfigureWritesTheProfileOrDiscardsIt : Prop :=
  ∀ (s : State) (Rw Pw : Word) (R P : Int), R = Rw.toInt → P = Pw.toInt →
    ((1 ≤ R ∧ 1 ≤ P ∧ 1000000 ≤ P * R ∧ 1000000 ≤ 12 * R ∧ P * R / 1000000 < R / 5000) →
      exec (.configure Rw Pw) s = .next
        { mode := .ready, cfgFs := some Rw, cfgP := Pw,
          nPw := some (BitVec.ofInt 64 (P * R / 1000000)),
          nData0 := some (BitVec.ofInt 64 (2 * P * R / 1000000)),
          nData1 := some (BitVec.ofInt 64 (4 * P * R / 1000000)),
          nDelim := some (BitVec.ofInt 64 (12 * R / 1000000)),
          nRtcal := some (BitVec.ofInt 64 (6 * P * R / 1000000)),
          nTrcal8 := some (BitVec.ofInt 64 (R / 5000)),
          nTrcal643 := some (BitVec.ofInt 64 (R / 1875)),
          inputs := s.inputs, responses := s.responses ++ [⟨.ok, []⟩] }) ∧
    (¬(1 ≤ R ∧ 1 ≤ P ∧ 1000000 ≤ P * R ∧ 1000000 ≤ 12 * R ∧ P * R / 1000000 < R / 5000) →
      exec (.configure Rw Pw) s = .next
        { mode := .unconfigured, cfgFs := none, cfgP := s.cfgP, nPw := none, nData0 := none, nData1 := none,
          nDelim := none, nRtcal := none, nTrcal8 := none, nTrcal643 := none,
          inputs := s.inputs, responses := s.responses ++ [⟨.configInvalid, []⟩] })

/-- R131, R132, R133: each count is the exact value truncated: it is at most that value and less than one below it, so no
segment is longer than its nominal duration (R241). -/
def Obligations.CountsAreTheExactValuesTruncated : Prop :=
  ∀ R P : Int, 1 ≤ R → 1 ≤ P →
    (1000000 * pulseCount R P ≤ P * R ∧ P * R < 1000000 * (pulseCount R P + 1)) ∧
    (1000000 * data0Count R P ≤ 2 * P * R ∧ 2 * P * R < 1000000 * (data0Count R P + 1)) ∧
    (1000000 * data1Count R P ≤ 4 * P * R ∧ 4 * P * R < 1000000 * (data1Count R P + 1)) ∧
    (1000000 * rtcalCount R P ≤ 6 * P * R ∧ 6 * P * R < 1000000 * (rtcalCount R P + 1)) ∧
    (1000000 * delimCount R ≤ 12 * R ∧ 12 * R < 1000000 * (delimCount R + 1)) ∧
    (40000 * trcal8Count R ≤ 8 * R ∧ 8 * R < 40000 * (trcal8Count R + 1)) ∧
    (120000 * trcal643Count R ≤ 64 * R ∧ 64 * R < 120000 * (trcal643Count R + 1))

/-- R135: the order of the counts of a valid pair. -/
def Obligations.ValidCountsAreOrdered : Prop :=
  ∀ R P : Int, configValid R P = true →
    1 ≤ pulseCount R P ∧ pulseCount R P < data0Count R P ∧ data0Count R P < data1Count R P ∧
      data1Count R P < rtcalCount R P ∧ pulseCount R P < trcal8Count R ∧ trcal8Count R ≤ trcal643Count R ∧
      (rtcalCount R P = data0Count R P + data1Count R P ∨ rtcalCount R P = data0Count R P + data1Count R P + 1)

/-- R142 (conflict C2): exactly when the twice relations hold. The first holds when `P * R` is a multiple of 500,000, both
when it is a multiple of 1,000,000, and the first fails at `R = 1,062,500`, `P = 12`. (R142's own sentence on multiples of
500,000 is the next statement: log entry 15.) -/
def Obligations.TwiceRelationsHoldExactlyWhenTheFractionIsSmall : Prop :=
  (∀ R P : Int, 1 ≤ R → 1 ≤ P →
      (data1Count R P = 2 * data0Count R P ↔ (2 * P * R) % 1000000 < 500000) ∧
      (data0Count R P = 2 * pulseCount R P ↔ (P * R) % 1000000 < 500000) ∧
      (500000 ∣ P * R → data1Count R P = 2 * data0Count R P ∧ rtcalCount R P = data0Count R P + data1Count R P) ∧
      (1000000 ∣ P * R → data0Count R P = 2 * pulseCount R P)) ∧
    data0Count 1062500 12 = 25 ∧ data1Count 1062500 12 = 51

/-- The last sentence but one of R142 before its conflict note, and R236's advice: both twice relations at every valid pair
with `P * R` a multiple of 500,000. It contradicts R142's own exact condition at the odd multiples and is expected to fail
(log entry 15). -/
def Obligations.BothTwiceRelationsHoldAtMultiplesOf500000 : Prop :=
  ∀ R P : Int, configValid R P = true → 500000 ∣ P * R →
    data1Count R P = 2 * data0Count R P ∧ data0Count R P = 2 * pulseCount R P

/-- R25: in a good READY state every count register holds its count exactly, below 2^45. -/
def Obligations.CountRegistersHoldTheCountsWithoutOverflow : Prop :=
  ∀ (s : State) (Rw : Word), s.registersAgree = true → s.mode = .ready → s.cfgFs = some Rw →
    (held s.nPw : Int) = pulseCount Rw.toInt s.cfgP.toInt ∧ (held s.nData0 : Int) = data0Count Rw.toInt s.cfgP.toInt ∧
      (held s.nData1 : Int) = data1Count Rw.toInt s.cfgP.toInt ∧ (held s.nDelim : Int) = delimCount Rw.toInt ∧
      (held s.nRtcal : Int) = rtcalCount Rw.toInt s.cfgP.toInt ∧ (held s.nTrcal8 : Int) = trcal8Count Rw.toInt ∧
      (held s.nTrcal643 : Int) = trcal643Count Rw.toInt ∧
      held s.nPw < 2 ^ 45 ∧ held s.nData0 < 2 ^ 45 ∧ held s.nData1 < 2 ^ 45 ∧ held s.nDelim < 2 ^ 45 ∧
      held s.nRtcal < 2 ^ 45 ∧ held s.nTrcal8 < 2 ^ 45 ∧ held s.nTrcal643 < 2 ^ 45

/-- R59, R62: the command right after a successful CONFIGURE, whichever it is, uses that CONFIGURE's profile, whatever the
state held before: its frame in the new profile, or for a SELECT without `length` mask bits its own error. -/
def Obligations.ConfigureIsSeenByTheNextCommand : Prop :=
  ∀ (s : State) (Rw Pw : Word) (i : Instr) (rest : List PortEvent),
    configValid Rw.toInt Pw.toInt = true → isCommand i = true → i.wellFormed = true →
    s.inputs = .request (encode (.configure Rw Pw)) :: .request (encode i) :: rest →
    ∃ t, Host.Core.run core 2 s = .next t ∧ t.inputs = rest ∧ t.cfgFs = some Rw ∧ t.cfgP = Pw ∧
      t.registersAgree = true ∧
      t.responses = s.responses ++
        [⟨.ok, []⟩, if isAccepted i then ⟨.ok, framingOf t i ++ encodeOf t (frameOf i)⟩ else ⟨.maskLengthMismatch, []⟩]

/-! ### The commands -/

/-- R170: SELECT in a good READY state: MASK_LENGTH_MISMATCH with no samples when the mask has not `length` bits, else the
frame of the rule behind frame-sync; nothing else is written. -/
def Obligations.SelectEmitsItsFrameOrReportsTheMismatch : Prop :=
  ∀ (s : State) (g : SelectTarget) (a p l : Word) (b : MemBank) (m : Bits) (x : Bool) (cmd : Bits),
    s.registersAgree = true → s.mode = .ready →
    cmd = [true, false, true, false] ++ wordBits (selectTargetCode g) ++ bitsW 3 a.toInt ++ wordBits (memBankCode b) ++
      ebvEncode (bitsW 32 p.toInt) ++ bitsW 8 l.toInt ++ m ++ [x] →
    exec (.select g a b p l m x) s = .next { s with responses := s.responses ++
      [if (m.length : Int) = l.toInt then ⟨.ok, frameSyncOf s ++ encodeOf s (cmd ++ crc16 cmd)⟩
        else ⟨.maskLengthMismatch, []⟩] }

/-- R171: QUERY in a good READY state: its frame behind the preamble of its rate value; nothing else is written. -/
def Obligations.QueryEmitsItsFrameBehindThePreamble : Prop :=
  ∀ (s : State) (d : DivideRatio) (m : Miller) (x : Bool) (e : Sel) (n : Session) (g : InvTarget) (q : Word) (cmd : Bits),
    s.registersAgree = true → s.mode = .ready →
    cmd = [true, false, false, false] ++ wordBits (drCode d) ++ wordBits (millerCode m) ++ [x] ++ wordBits (selCode e) ++
      wordBits (sessionCode n) ++ wordBits (invTargetCode g) ++ bitsW 4 q.toInt →
    exec (.query d m x e n g q) s = .next { s with responses := s.responses ++
      [⟨.ok, preambleOf s d ++ encodeOf s (cmd ++ crc5 cmd)⟩] }

/-- R172: QUERYREP in a good READY state. -/
def Obligations.QueryrepEmitsItsFrame : Prop :=
  ∀ (s : State) (n : Session), s.registersAgree = true → s.mode = .ready →
    exec (.queryrep n) s = .next { s with responses := s.responses ++
      [⟨.ok, frameSyncOf s ++ encodeOf s ([false, false] ++ wordBits (sessionCode n))⟩] }

/-- R173: QUERYADJUST in a good READY state. -/
def Obligations.QueryadjustEmitsItsFrame : Prop :=
  ∀ (s : State) (n : Session) (u : UpDn), s.registersAgree = true → s.mode = .ready →
    exec (.queryadjust n u) s = .next { s with responses := s.responses ++
      [⟨.ok, frameSyncOf s ++ encodeOf s ([true, false, false, true] ++ wordBits (sessionCode n) ++ wordBits (updnCode u))⟩] }

/-- R174: ACK in a good READY state. -/
def Obligations.AckEmitsItsFrame : Prop :=
  ∀ (s : State) (r : BitVec 16), s.registersAgree = true → s.mode = .ready →
    exec (.ack r) s = .next { s with responses := s.responses ++
      [⟨.ok, frameSyncOf s ++ encodeOf s ([false, true] ++ bitsW 16 r.toNat)⟩] }

/-- R161: the sample count of an accepted command: the framing's segments and one symbol length for each frame bit. -/
def Obligations.ResponsesHaveTheSpecifiedSampleCount : Prop :=
  ∀ (s : State) (i : Instr), s.registersAgree = true → s.mode = .ready → isAccepted i = true →
    ∃ (t : State) (w : Samples), exec i s = .next t ∧ t.responses = s.responses ++ [⟨.ok, w⟩] ∧
      w.length = held s.nDelim + held s.nData0 + held s.nRtcal + trcalSamples s i +
        held s.nData0 * (frameOf i).count false + held s.nData1 * (frameOf i).count true

/-- R175: the frame lengths. -/
def Obligations.FramesHaveTheSpecifiedLengths : Prop :=
  (∀ g a b p l m x, (selectBits g a b p l m x).length = 61 + m.length ∧
      (selectFrame g a b p l m x).length = 77 + m.length) ∧
    (∀ d m x e n g q, (queryBits d m x e n g q).length = 17 ∧ (queryFrame d m x e n g q).length = 22) ∧
    (∀ n, (queryrepFrame n).length = 4) ∧ (∀ n u, (queryadjustFrame n u).length = 9) ∧ ∀ r, (ackFrame r).length = 18

/-- R51: a frame has at most 77 + MASK_MAX bits and a response at most the bound of the rule. -/
def Obligations.FramesAndResponsesStayWithinTheirBounds : Prop :=
  ∀ (s t : State) (i : Instr) (resp : Response), s.registersAgree = true → s.mode = .ready → i.wellFormed = true →
    exec i s = .next t → t.responses = s.responses ++ [resp] →
    (frameOf i).length ≤ 77 + Config.maskMax ∧
      resp.samples.length ≤ held s.nDelim + held s.nData0 + held s.nRtcal + max (held s.nTrcal8) (held s.nTrcal643) +
        (77 + Config.maskMax) * held s.nData1

/-- R163, the frame of the five commands: a next state differs from the state before in one appended response only. -/
def Obligations.CommandsWriteNoState : Prop :=
  ∀ (s t : State) (i : Instr), isCommand i = true → exec i s = .next t →
    ∃ resp, t = { s with responses := s.responses ++ [resp] }

/-- R30: two states that hold the same ten elements give one request the same response and the same elements after it, and
a command leaves every element unchanged. -/
def Obligations.ResponseDependsOnRegistersAndRequestAlone : Prop :=
  ∀ (s₁ s₂ t₁ : State) (i : Instr), SameRegisters s₁ s₂ → exec i s₁ = .next t₁ →
    ∃ t₂ resp, exec i s₂ = .next t₂ ∧ t₁.responses = s₁.responses ++ [resp] ∧ t₂.responses = s₂.responses ++ [resp] ∧
      SameRegisters t₁ t₂ ∧ (isCommand i = true → SameRegisters t₁ s₁)

/-- R59: reordering two commands changes the order of their responses, never their contents, and the elements are those
before. -/
def Obligations.ReorderingTwoCommandsReordersTheirResponsesOnly : Prop :=
  ∀ (s u t : State) (i j : Instr), isCommand i = true → isCommand j = true → exec i s = .next u → exec j u = .next t →
    ∃ u' t' ri rj, exec j s = .next u' ∧ exec i u' = .next t' ∧ t.responses = s.responses ++ [ri, rj] ∧
      t'.responses = s.responses ++ [rj, ri] ∧ SameRegisters t s ∧ SameRegisters t' s

/-- R72, R209, R238: `action` and `q` outside their ranges act as their low bits, in every state and with no status. -/
def Obligations.OutOfRangeActionAndQActAsTheirLowBits : Prop :=
  (∀ (s : State) (g : SelectTarget) (a a' p l : Word) (b : MemBank) (m : Bits) (x : Bool), a.toNat % 8 = a'.toNat % 8 →
      exec (.select g a b p l m x) s = exec (.select g a' b p l m x) s) ∧
    ∀ (s : State) (d : DivideRatio) (m : Miller) (x : Bool) (e : Sel) (n : Session) (g : InvTarget) (q q' : Word),
      q.toNat % 16 = q'.toNat % 16 → exec (.query d m x e n g q) s = exec (.query d m x e n g q') s

/-! ### Frames -/

/-- R80, R82, R85, R86, R88, R89, R90, R92: the field codes, most significant bit first. -/
def Obligations.FieldCodesAreThoseOfTheTables : Prop :=
  wordBits (selectTargetCode .invS0) = [false, false, false] ∧ wordBits (selectTargetCode .invS1) = [false, false, true] ∧
  wordBits (selectTargetCode .invS2) = [false, true, false] ∧ wordBits (selectTargetCode .invS3) = [false, true, true] ∧
  wordBits (selectTargetCode .sl) = [true, false, false] ∧
  wordBits (memBankCode .fileType) = [false, false] ∧ wordBits (memBankCode .epc) = [false, true] ∧
  wordBits (memBankCode .tid) = [true, false] ∧ wordBits (memBankCode .file0) = [true, true] ∧
  wordBits (drCode .dr8) = [false] ∧ wordBits (drCode .dr643) = [true] ∧
  wordBits (millerCode .m1) = [false, false] ∧ wordBits (millerCode .m2) = [false, true] ∧
  wordBits (millerCode .m4) = [true, false] ∧ wordBits (millerCode .m8) = [true, true] ∧
  wordBits (selCode .all) = [false, false] ∧ wordBits (selCode .notSl) = [true, false] ∧
  wordBits (selCode .sl) = [true, true] ∧
  wordBits (sessionCode .s0) = [false, false] ∧ wordBits (sessionCode .s1) = [false, true] ∧
  wordBits (sessionCode .s2) = [true, false] ∧ wordBits (sessionCode .s3) = [true, true] ∧
  wordBits (invTargetCode .a) = [false] ∧ wordBits (invTargetCode .b) = [true] ∧
  wordBits (updnCode .unchanged) = [false, false, false] ∧ wordBits (updnCode .increase) = [true, true, false] ∧
  wordBits (updnCode .decrease) = [false, true, true]

/-- R75: every field of a Select frame stands at its place. -/
def Obligations.SelectFrameFieldsStandAtTheirPlaces : Prop :=
  ∀ (g : SelectTarget) (a p l : Word) (b : MemBank) (m : Bits) (x : Bool) (f : Bits), f = selectFrame g a b p l m x →
    f.take 4 = [true, false, true, false] ∧ (f.drop 4).take 3 = wordBits (selectTargetCode g) ∧
      (f.drop 7).take 3 = bitsW 3 a.toInt ∧ (f.drop 10).take 2 = wordBits (memBankCode b) ∧
      (f.drop 12).take 40 = ebvEncode (bitsW 32 p.toInt) ∧ (f.drop 52).take 8 = bitsW 8 l.toInt ∧
      (f.drop 60).take m.length = m ∧ (f.drop (60 + m.length)).take 1 = [x] ∧
      f.drop (61 + m.length) = crc16 (f.take (61 + m.length))

/-- R76: every field of a Query frame stands at its place. -/
def Obligations.QueryFrameFieldsStandAtTheirPlaces : Prop :=
  ∀ (d : DivideRatio) (m : Miller) (x : Bool) (e : Sel) (n : Session) (g : InvTarget) (q : Word) (f : Bits),
    f = queryFrame d m x e n g q →
    f.take 4 = [true, false, false, false] ∧ (f.drop 4).take 1 = wordBits (drCode d) ∧
      (f.drop 5).take 2 = wordBits (millerCode m) ∧ (f.drop 7).take 1 = [x] ∧ (f.drop 8).take 2 = wordBits (selCode e) ∧
      (f.drop 10).take 2 = wordBits (sessionCode n) ∧ (f.drop 12).take 1 = wordBits (invTargetCode g) ∧
      (f.drop 13).take 4 = bitsW 4 q.toInt ∧ f.drop 17 = crc5 (f.take 17)

/-- R74: every frame begins with its command's header, and no header begins another command's frame. -/
def Obligations.HeadersTellTheCommandApart : Prop :=
  (∀ i : Instr, isCommand i = true → headerOf i <+: frameOf i) ∧
    ∀ i j : Instr, isCommand i = true → isCommand j = true → headerOf i <+: frameOf j → headerOf i = headerOf j

/-- R94: the headers 1011 and 11 begin no frame, and no frame carries an unnamed code. -/
def Obligations.UnnamedCodesAreNeverEmitted : Prop :=
  (∀ i : Instr, isCommand i = true → ¬[true, true] <+: frameOf i ∧ ¬[true, false, true, true] <+: frameOf i) ∧
    (∀ g a b p l m x, valOf (((selectFrame g a b p l m x).drop 4).take 3) < 5) ∧
    (∀ d m x e n g q, ((queryFrame d m x e n g q).drop 8).take 2 ≠ [false, true]) ∧
    ∀ n u, (queryadjustFrame n u).drop 6 = [false, false, false] ∨ (queryadjustFrame n u).drop 6 = [true, true, false] ∨
      (queryadjustFrame n u).drop 6 = [false, true, true]

/-- From R53, R75 to R79, R81, R91: accepted commands with the same frame are the same command, up to the bits of `action`
and `q` that no frame carries: no field is lost in a frame. -/
def Obligations.FrameDeterminesTheCommand : Prop :=
  ∀ i j : Instr, isAccepted i = true → isAccepted j = true → frameOf i = frameOf j → canonical i = canonical j

/-! ### EBV packer and CRC unit -/

/-- R101: the length of an EBV field for every input length. -/
def Obligations.EbvFieldsAreWholeBlocks : Prop :=
  ∀ b : Bits, (ebvEncode b).length = 8 * max 1 ((b.length + 6) / 7)

/-- R100: the field is `k` blocks of 8 bits, `k = max(1, ceil(L / 7))`; the extension bit of block `i` is 1 for all blocks
but the last, and its payload is the next 7 bits of the left-padded input. -/
def Obligations.EbvBlocksCarryExtensionBitAndPayload : Prop :=
  ∀ (b : Bits) (k i : Nat), k = max 1 ((b.length + 6) / 7) → i < k →
    (ebvEncode b).length = 8 * k ∧
      ((ebvEncode b).drop (8 * i)).take 8 =
        decide (i + 1 < k) :: ((List.replicate (7 * k - b.length) false ++ b).drop (7 * i)).take 7

/-- R102: the code is self-terminating and its inverse recovers the input, whatever bits follow the field. -/
def Obligations.EbvDecodingRecoversTheInput : Prop :=
  ∀ b rest : Bits, ebvDecode b.length (ebvEncode b ++ rest) = some b

/-- R83: the 40 bits of the Select pointer field, for every pointer. -/
def Obligations.PointerFieldIsFiveBlocks : Prop :=
  ∀ (pointer : Word) (p : Bits), p = bitsW 32 pointer.toInt →
    pointerField pointer = [true, false, false, false] ++ p.take 4 ++ [true] ++ (p.drop 4).take 7 ++ [true] ++
      (p.drop 11).take 7 ++ [true] ++ (p.drop 18).take 7 ++ [false] ++ p.drop 25

/-- R115: the residues of both CRCs, for every bit sequence. -/
def Obligations.CrcRegistersLeaveTheirResidues : Prop :=
  ∀ b : Bits, crc5Register (b ++ crc5 b) = 0b00000#5 ∧ crc16Register (b ++ crc16 b) = 0x1D0F#16

/-- R116: the check values over the 72 bits of the ASCII string 123456789. -/
def Obligations.CrcCheckValues : Prop :=
  crc5 (bitsOfNat 72 0x313233343536373839) = bitsOfNat 5 0b00000 ∧
    crc16 (bitsOfNat 72 0x313233343536373839) = bitsOfNat 16 0xD64E

/-! ### Waveforms -/

/-- R144: the levels of frame-sync and preamble in a good READY state, and that their falling edges are one RT-cal length
and one TR-cal length apart. -/
def Obligations.FramingFallsAtTheEndOfEachHighPart : Prop :=
  ∀ (s : State) (d : DivideRatio), s.registersAgree = true → s.mode = .ready →
    frameSync s = .ok (frameSyncOf s) ∧ preamble s d = .ok (preambleOf s d) ∧
      fallingEdges 0 false (preambleOf s d) =
        [held s.nDelim + held s.nData0 - held s.nPw, held s.nDelim + held s.nData0 + held s.nRtcal - held s.nPw,
          held s.nDelim + held s.nData0 + held s.nRtcal + held (trcalOf s d) - held s.nPw]

/-- R143: in `encode(b)` each symbol has exactly one falling edge, and from one symbol's falling edge to the next is the
next symbol's length, `n_data0` for a 0 bit and `n_data1` for a 1 bit. -/
def Obligations.SymbolsFallOneSymbolLengthApart : Prop :=
  ∀ (s : State) (b : Bits), s.registersAgree = true → s.mode = .ready →
    encodeSymbols s b = .ok (encodeOf s b) ∧
      fallingEdges 0 false (encodeOf s b) = symbolEdges (held s.nPw) (held s.nData0) (held s.nData1) 0 b

/-- From R143: with one profile, two bit sequences with the same symbols are the same bit sequence. -/
def Obligations.SymbolsDetermineTheBits : Prop :=
  ∀ (s : State) (b b' : Bits), s.registersAgree = true → s.mode = .ready → encodeOf s b = encodeOf s b' → b = b'

/-- From R30, R74, R143, R160: in one good READY state, two accepted commands that emit the same waveform are the same
command, up to the bits of `action` and `q` that no frame carries. -/
def Obligations.WaveformDeterminesTheCommand : Prop :=
  ∀ (s t u : State) (i j : Instr) (w : Samples), s.registersAgree = true → s.mode = .ready →
    isAccepted i = true → isAccepted j = true → exec i s = .next t → exec j s = .next u →
    t.responses = s.responses ++ [⟨.ok, w⟩] → u.responses = s.responses ++ [⟨.ok, w⟩] → canonical i = canonical j

/-! ### Encoding of requests -/

/-- R70, R71, R73: the record of every request the port can carry decodes to that request. -/
def Obligations.DecodeInvertsEncode : Prop :=
  ∀ i : Instr, i.wellFormed = true → decode (encode i) = .ok i

/-- R70, R71, R73: a record of kind 0 to 5 that decodes is the record of what it decodes to, which the port can carry: no
bit of it is dropped. -/
def Obligations.DecodedRecordsAreTheirEncodings : Prop :=
  ∀ (r : Request) (i : Instr), r.reqKind.toNat < 6 → decode r = .ok i → encode i = r ∧ i.wellFormed = true

/-- R70, R71 on the records that spec/95_test_vectors.md writes out in P1 and P2. -/
def Obligations.RecordsOfTheVectorsDecode : Prop :=
  decode ⟨5, [bitsOfNat 32 0x000F4240, bitsOfNat 32 0x0000000C]⟩ = .ok (.configure 1000000 12) ∧
    decode ⟨0, [[true, false, false], bitsOfNat 32 0x00000004, [false, true], bitsOfNat 32 0x00000020,
      bitsOfNat 32 0x00000008, [true, true, true, false, false, false, true, false], [false]]⟩ =
      .ok (.select .sl 4 .epc 32 8 [true, true, true, false, false, false, true, false] false) ∧
    decode ⟨1, [[false], [false, false], [false], [false, false], [false, true], [false], bitsOfNat 32 0x00000004]⟩ =
      .ok (.query .dr8 .m1 false .all .s1 .a 4) ∧
    decode ⟨4, [bitsOfNat 16 0b1010101111001101]⟩ = .ok (.ack 0xABCD) ∧
    decode ⟨2, [[false, true]]⟩ = .ok (.queryrep .s1) ∧
    decode ⟨3, [[false, true], [true, true, false]]⟩ = .ok (.queryadjust .s1 .increase)

/-- R96, R97 on lines that the spec writes: each gives exactly one request record, and a CONFIGURE without a divisor means
12. -/
def Obligations.WrittenRequestsGiveTheirRecords : Prop :=
  readLine "QUERY dr=DR_8, miller=M1, trext=false, sel=ALL, session=S0, target=A, q=0".toList =
      some (.request (encode (.query .dr8 .m1 false .all .s0 .a 0))) ∧
    readLine "CONFIGURE sampling_rate=1062500".toList = some (.request (encode (.configure 1062500 12))) ∧
    readLine "ACK rn16=0xABCD".toList = some (.request (encode (.ack 0xABCD))) ∧
    readLine "RESET".toList = some .reset

/-! ### Invariants and whole-machine rules -/

/-- R22, R25, R230: the reset state is a good state. That nothing out of the port's range is presented in it rests on the
reset value `[]` of the model's own field `inputs`, the model's choice (log entry 5). -/
def Obligations.ResetStateIsGood : Prop :=
  State.reset.registersAgree = true ∧ State.reset.inputsCarriable = true

/-- R22 to R26: that MODE, CFG_FS, CFG_P and the counts agree is kept by every step. -/
def Obligations.RegistersAgreeIsKeptByEveryStep : Prop :=
  ∀ s t : State, s.registersAgree = true → step s = .next t → t.registersAgree = true

/-- R9, R135, R203, I6: a good state with carriable input always has a next state, which is good again: no fault and no
refusal can come, no `⊥` is read and no template is too short. -/
def Obligations.GoodStatesNeverStop : Prop :=
  ∀ s : State, s.registersAgree = true → s.inputsCarriable = true →
    ∃ t, step s = .next t ∧ t.registersAgree = true ∧ t.inputsCarriable = true

/-- R22, R28: a step that changes any of the ten elements takes a reset pulse or a CONFIGURE. -/
def Obligations.OnlyResetAndConfigureWriteTheRegisters : Prop :=
  ∀ s t : State, step s = .next t → ¬SameRegisters t s →
    ∃ rest, s.inputs = .reset :: rest ∨
      ∃ (r : Request) (R P : Word), s.inputs = .request r :: rest ∧ decode r = .ok (.configure R P)

/-- R22: after any run, MODE is READY exactly when the last CONFIGURE since the last reset succeeded; what came before the
run is the MODE it starts in. -/
def Obligations.ModeTellsWhetherTheLastConfigureSucceeded : Prop :=
  ∀ (k : Nat) (s t : State), Host.Core.run core k s = .next t →
    (t.mode = .ready ↔ lastConfigureSucceeded (decide (s.mode = .ready)) (s.inputs.take k) = true)
end

