-- ==== Sys2Proof/Laws/Bits.lean ====
section
/-! SUPPORT. What the bit helpers of Decode do: lengths, and reading back what was written. -/

namespace Sys2Proof

@[simp] theorem length_bitsOfNat (w v : Nat) : (bitsOfNat w v).length = w := by
  induction w generalizing v with
  | zero => rfl
  | succ w ih => simp [bitsOfNat, ih]

@[simp] theorem length_bitsW (w : Nat) (v : Int) : (bitsW w v).length = w := by
  simp [bitsW]

@[simp] theorem length_wordBits {w : Nat} (x : BitVec w) : (wordBits x).length = w := by
  simp [wordBits]

theorem foldl_bits_start (s : Bits) (a : Nat) :
    s.foldl (fun acc b => 2 * acc + b.toNat) a = 2 ^ s.length * a + valOf s := by
  induction s generalizing a with
  | nil => simp [valOf]
  | cons b s ih =>
    have h0 := ih (Bool.toNat b)
    simp only [valOf, List.foldl_cons, List.length_cons, Nat.mul_zero, Nat.zero_add] at *
    rw [ih, h0, pow_succ]
    ring

theorem valOf_cons (b : Bool) (s : Bits) : valOf (b :: s) = 2 ^ s.length * b.toNat + valOf s := by
  have h := foldl_bits_start s b.toNat
  simpa [valOf] using h

theorem valOf_lt (s : Bits) : valOf s < 2 ^ s.length := by
  induction s with
  | nil => simp [valOf]
  | cons b s ih =>
    rw [valOf_cons, List.length_cons, pow_succ]
    cases b <;> simp <;> omega

/-- `val(bits_w(v))` is `v mod 2^w` (R8). -/
theorem valOf_bitsOfNat (w v : Nat) : valOf (bitsOfNat w v) = v % 2 ^ w := by
  induction w generalizing v with
  | zero => simp [bitsOfNat, valOf, Nat.mod_one]
  | succ w ih =>
    rw [bitsOfNat, valOf_cons, ih, length_bitsOfNat, Nat.mod_pow_succ, Nat.testBit_eq_decide_div_mod_eq]
    rcases Nat.mod_two_eq_zero_or_one (v / 2 ^ w) with h | h <;> simp [h]
    omega

theorem bitsOfNat_mod (w v : Nat) : bitsOfNat w (v % 2 ^ w) = bitsOfNat w v := by
  have key : ∀ n, n ≤ w → bitsOfNat n (v % 2 ^ w) = bitsOfNat n v := by
    intro n
    induction n with
    | zero => simp [bitsOfNat]
    | succ n ih =>
      intro hn
      have hlt : n < w := by omega
      rw [bitsOfNat, bitsOfNat, ih (by omega), Nat.testBit_mod_two_pow]
      simp [hlt]
  exact key w le_rfl

/-- A bit sequence is what its value writes back. -/
theorem bitsOfNat_valOf (s : Bits) : bitsOfNat s.length (valOf s) = s := by
  induction s with
  | nil => rfl
  | cons b s ih =>
    have hlt := valOf_lt s
    have htail : bitsOfNat s.length (valOf (b :: s)) = s := by
      rw [← bitsOfNat_mod, valOf_cons, Nat.mul_add_mod, Nat.mod_eq_of_lt hlt, ih]
    have hhead : (valOf (b :: s)).testBit s.length = b := by
      rw [valOf_cons, Nat.testBit_eq_decide_div_mod_eq, Nat.add_comm, Nat.add_mul_div_left _ _ (by positivity),
        Nat.div_eq_of_lt hlt]
      cases b <;> simp
    rw [List.length_cons, bitsOfNat, hhead, htail]

/-- `bits_w` of a word read as signed takes the word's low bits (R72). -/
theorem bitsW_toInt {n : Nat} (w : Nat) (hw : w ≤ n) (x : BitVec n) : bitsW w x.toInt = bitsOfNat w x.toNat := by
  have h : (x.toInt % 2 ^ w).toNat = x.toNat % 2 ^ w := by
    have hd : ((2 ^ w : Nat) : Int) ∣ ((2 ^ n : Nat) : Int) := by exact_mod_cast pow_dvd_pow 2 hw
    have this : x.toInt % ((2 ^ w : Nat) : Int) = ((x.toNat % 2 ^ w : Nat) : Int) := by
      rw [BitVec.toInt_eq_toNat_bmod, ← Int.emod_emod_of_dvd _ hd, Int.bmod_emod, Int.emod_emod_of_dvd _ hd]
      exact (Int.natCast_emod _ _).symm
    rw [show (2 : Int) ^ w = ((2 ^ w : Nat) : Int) by push_cast; rfl, this, Int.toNat_natCast]
  rw [bitsW, h, bitsOfNat_mod]

@[simp] theorem readField_wordBits {w : Nat} (x : BitVec w) : readField w (wordBits x) = some x := by
  have : BitVec.ofNat w (valOf (wordBits x)) = x := by
    apply BitVec.eq_of_toNat_eq
    simp [wordBits, valOf_bitsOfNat]
  simp [readField, this]

/-- What a read field gives writes the field back. -/
theorem wordBits_of_readField {w : Nat} {f : Bits} {x : BitVec w} (h : readField w f = some x) : wordBits x = f := by
  unfold readField at h
  split at h
  · rename_i hl
    cases h
    have hlt : valOf f < 2 ^ w := hl ▸ valOf_lt f
    rw [wordBits, BitVec.toNat_ofNat, Nat.mod_eq_of_lt hlt, ← hl]
    exact bitsOfNat_valOf f
  · cases h

@[simp] theorem readFlag_singleton (b : Bool) : readFlag [b] = some b := rfl

theorem eq_of_readFlag {f : Bits} {b : Bool} (h : readFlag f = some b) : f = [b] := by
  unfold readFlag at h
  split at h
  · cases h; rfl
  · cases h

/-- `maskFits` is `mask_len <= MASK_MAX` (R71): lengths up to 255 always fit (D5). -/
theorem maskFits_iff (n : Nat) : maskFits n = true ↔ n ≤ Config.maskMax := by
  unfold maskFits Config.maskMax
  simp
  omega

end Sys2Proof
end

