-- ==== Sys2Proof/Laws/Decode.lean ====
section
/-! SUPPORT. The field code tables read back what they write, in both directions (spec/30_encoding.md R80 to R92). -/

namespace Sys2Proof

@[simp] theorem selectTargetOf_code (x : SelectTarget) : selectTargetOf (selectTargetCode x) = some x := by
  cases x <;> decide

@[simp] theorem memBankOf_code (x : MemBank) : memBankOf (memBankCode x) = x := by cases x <;> decide

@[simp] theorem drOf_code (x : DivideRatio) : drOf (drCode x) = x := by cases x <;> decide

@[simp] theorem millerOf_code (x : Miller) : millerOf (millerCode x) = x := by cases x <;> decide

@[simp] theorem selOf_code (x : Sel) : selOf (selCode x) = some x := by cases x <;> decide

@[simp] theorem sessionOf_code (x : Session) : sessionOf (sessionCode x) = x := by cases x <;> decide

@[simp] theorem invTargetOf_code (x : InvTarget) : invTargetOf (invTargetCode x) = x := by cases x <;> decide

@[simp] theorem updnOf_code (x : UpDn) : updnOf (updnCode x) = some x := by cases x <;> decide

theorem selectTargetCode_of {c : BitVec 3} {x : SelectTarget} (h : selectTargetOf c = some x) :
    selectTargetCode x = c := by
  revert c
  cases x <;> decide

@[simp] theorem memBankCode_of (c : BitVec 2) : memBankCode (memBankOf c) = c := by
  revert c
  decide

@[simp] theorem drCode_of (c : BitVec 1) : drCode (drOf c) = c := by
  revert c
  decide

@[simp] theorem millerCode_of (c : BitVec 2) : millerCode (millerOf c) = c := by
  revert c
  decide

theorem selCode_of {c : BitVec 2} {x : Sel} (h : selOf c = some x) : selCode x = c := by
  revert c
  cases x <;> decide

@[simp] theorem sessionCode_of (c : BitVec 2) : sessionCode (sessionOf c) = c := by
  revert c
  decide

@[simp] theorem invTargetCode_of (c : BitVec 1) : invTargetCode (invTargetOf c) = c := by
  revert c
  decide

theorem updnCode_of {c : BitVec 3} {x : UpDn} (h : updnOf c = some x) : updnCode x = c := by
  revert c
  cases x <;> decide

/-- Two fields with the same bits are the same field. -/
theorem wordBits_inj {w : Nat} {x y : BitVec w} (h : wordBits x = wordBits y) : x = y := by
  simpa using congrArg (readField w) h

end Sys2Proof
end

