-- ==== Sys2Proof/Laws/Frame.lean ====
section
/-! SUPPORT. Lengths of the EBV field, the CRC fields, the operand fields and the frames. -/

namespace Sys2Proof.Machine

theorem length_ebvBlocks (k : Nat) (p : Bits) (h : p.length = 7 * k) : (ebvBlocks k p).length = 8 * k := by
  induction k generalizing p with
  | zero => simp [ebvBlocks]
  | succ k ih =>
    have := ih (p.drop 7) (by simp; omega)
    simp [ebvBlocks, this]
    omega

@[simp] theorem length_crc5 (b : Bits) : (crc5 b).length = 5 := by simp [crc5]

@[simp] theorem length_crc16 (b : Bits) : (crc16 b).length = 16 := by simp [crc16]

@[simp] theorem length_truncatedField (w : Nat) (x : Word) : (truncatedField w x).length = w := by simp [truncatedField]

@[simp] theorem length_actionField (x : Word) : (actionField x).length = 3 := by simp [actionField]

@[simp] theorem length_lengthField (x : Word) : (lengthField x).length = 8 := by simp [lengthField]

@[simp] theorem length_qField (x : Word) : (qField x).length = 4 := by simp [qField]

@[simp] theorem length_rn16Field (x : BitVec 16) : (rn16Field x).length = 16 := by simp [rn16Field]

@[simp] theorem length_pointerField (x : Word) : (pointerField x).length = 40 := by
  have hk : ebvBlockCount (truncatedField 32 x).length = 5 := by simp [ebvBlockCount]
  simp only [pointerField, ebvEncode, hk]
  exact length_ebvBlocks 5 _ (by simp)

/-- A truncated field is the word's low bits (R72). -/
theorem truncatedField_eq (w : Nat) (hw : w ≤ 32) (x : Word) : truncatedField w x = bitsOfNat w x.toNat :=
  bitsW_toInt w hw x

end Sys2Proof.Machine
end

