-- ==== Sys2Proof/Laws/Pie.lean ====
section
/-! SUPPORT. The arithmetic of the timing counts: truncation as floor, the closed forms, and validity as inequalities. -/

namespace Sys2Proof.Machine

theorem symbolCount_eq_floor (k R P : Int) (hk : 0 ≤ k) (hR : 0 ≤ R) (hP : 0 ≤ P) :
    symbolCount k R P = k * P * R / 1000000 :=
  Int.tdiv_eq_ediv_of_nonneg (by positivity)

theorem pulseCount_eq_floor (R P : Int) (hR : 0 ≤ R) (hP : 0 ≤ P) : pulseCount R P = P * R / 1000000 := by
  rw [pulseCount, symbolCount_eq_floor 1 R P (by omega) hR hP, one_mul]

theorem data0Count_eq_floor (R P : Int) (hR : 0 ≤ R) (hP : 0 ≤ P) : data0Count R P = 2 * P * R / 1000000 :=
  symbolCount_eq_floor 2 R P (by omega) hR hP

theorem data1Count_eq_floor (R P : Int) (hR : 0 ≤ R) (hP : 0 ≤ P) : data1Count R P = 4 * P * R / 1000000 :=
  symbolCount_eq_floor 4 R P (by omega) hR hP

theorem rtcalCount_eq_floor (R P : Int) (hR : 0 ≤ R) (hP : 0 ≤ P) : rtcalCount R P = 6 * P * R / 1000000 :=
  symbolCount_eq_floor 6 R P (by omega) hR hP

theorem delimCount_eq_floor (R : Int) (hR : 0 ≤ R) : delimCount R = 12 * R / 1000000 :=
  Int.tdiv_eq_ediv_of_nonneg (by simp [Config.delimUs]; omega)

theorem trcal8Count_eq_floor (R : Int) (hR : 0 ≤ R) : trcal8Count R = R / 5000 := by
  have : trcal8Count R = 8 * R / 40000 :=
    Int.tdiv_eq_ediv_of_nonneg (by simp [Config.rate8]; omega)
  omega

theorem trcal643Count_eq_floor (R : Int) (hR : 0 ≤ R) : trcal643Count R = R / 1875 := by
  have : trcal643Count R = 64 * R / 120000 :=
    Int.tdiv_eq_ediv_of_nonneg (by simp [Config.rate643]; omega)
  omega

/-- R134 with its counts in closed form. -/
theorem configValid_iff (R P : Int) : configValid R P = true ↔
    1 ≤ R ∧ 1 ≤ P ∧ 1000000 ≤ P * R ∧ 1000000 ≤ 12 * R ∧ P * R / 1000000 < R / 5000 := by
  simp only [configValid, Bool.and_eq_true, decide_eq_true_eq]
  constructor
  · rintro ⟨⟨⟨⟨hR, hP⟩, h1⟩, h2⟩, h3⟩
    rw [pulseCount_eq_floor R P (by omega) (by omega)] at h1 h3
    rw [delimCount_eq_floor R (by omega)] at h2
    rw [trcal8Count_eq_floor R (by omega)] at h3
    exact ⟨hR, hP, by omega, by omega, h3⟩
  · rintro ⟨hR, hP, h1, h2, h3⟩
    rw [pulseCount_eq_floor R P (by omega) (by omega), delimCount_eq_floor R (by omega), trcal8Count_eq_floor R (by omega)]
    exact ⟨⟨⟨⟨hR, hP⟩, by omega⟩, by omega⟩, h3⟩

/-- A count below 2^63 stands in its register as it is. -/
theorem toCount_toNat (n : Int) (h0 : 0 ≤ n) (h : n < 2 ^ 63) : (toCount n).toNat = n.toNat := by
  rw [toCount, BitVec.toNat_ofInt]
  congr 1
  exact Int.emod_eq_of_lt h0 (by omega)

@[simp] theorem length_pulseTemplate (pw n : Nat) (h : pw ≤ n) : (pulseTemplate pw n).length = n := by
  simp [pulseTemplate]
  omega

@[simp] theorem length_delimiterShape (n : Nat) : (delimiterShape n).length = n := by
  simp [delimiterShape]

/-- The length of rendered symbols: one symbol length a bit (R161). -/
theorem length_symbols (data0 data1 : Samples) (b : Bits) :
    (symbols data0 data1 b).length = data0.length * b.count false + data1.length * b.count true := by
  induction b with
  | nil => simp [symbols]
  | cons x b ih =>
    simp only [symbols, List.flatMap_cons, List.length_append] at *
    cases x <;> simp [ih] <;> ring

end Sys2Proof.Machine
end

