-- ==== Sys2Proof/Laws/State.lean ====
section
/-! SUPPORT. One lemma per field per update of State, each true by unfolding the update once. -/

namespace Sys2Proof.Machine

@[simp] theorem State.respond_mode (s : State) (status : Status) (samples : Samples) :
    (s.respond status samples).mode = s.mode := rfl

@[simp] theorem State.respond_cfgFs (s : State) (status : Status) (samples : Samples) :
    (s.respond status samples).cfgFs = s.cfgFs := rfl

@[simp] theorem State.respond_cfgP (s : State) (status : Status) (samples : Samples) :
    (s.respond status samples).cfgP = s.cfgP := rfl

@[simp] theorem State.respond_nPw (s : State) (status : Status) (samples : Samples) :
    (s.respond status samples).nPw = s.nPw := rfl

@[simp] theorem State.respond_nData0 (s : State) (status : Status) (samples : Samples) :
    (s.respond status samples).nData0 = s.nData0 := rfl

@[simp] theorem State.respond_nData1 (s : State) (status : Status) (samples : Samples) :
    (s.respond status samples).nData1 = s.nData1 := rfl

@[simp] theorem State.respond_nDelim (s : State) (status : Status) (samples : Samples) :
    (s.respond status samples).nDelim = s.nDelim := rfl

@[simp] theorem State.respond_nRtcal (s : State) (status : Status) (samples : Samples) :
    (s.respond status samples).nRtcal = s.nRtcal := rfl

@[simp] theorem State.respond_nTrcal8 (s : State) (status : Status) (samples : Samples) :
    (s.respond status samples).nTrcal8 = s.nTrcal8 := rfl

@[simp] theorem State.respond_nTrcal643 (s : State) (status : Status) (samples : Samples) :
    (s.respond status samples).nTrcal643 = s.nTrcal643 := rfl

@[simp] theorem State.respond_inputs (s : State) (status : Status) (samples : Samples) :
    (s.respond status samples).inputs = s.inputs := rfl

@[simp] theorem State.respond_responses (s : State) (status : Status) (samples : Samples) :
    (s.respond status samples).responses = s.responses ++ [⟨status, samples⟩] := rfl

@[simp] theorem State.raise_mode (s : State) (status : Status) :
    (s.raise status).mode = s.mode := rfl

@[simp] theorem State.raise_cfgFs (s : State) (status : Status) :
    (s.raise status).cfgFs = s.cfgFs := rfl

@[simp] theorem State.raise_cfgP (s : State) (status : Status) :
    (s.raise status).cfgP = s.cfgP := rfl

@[simp] theorem State.raise_nPw (s : State) (status : Status) :
    (s.raise status).nPw = s.nPw := rfl

@[simp] theorem State.raise_nData0 (s : State) (status : Status) :
    (s.raise status).nData0 = s.nData0 := rfl

@[simp] theorem State.raise_nData1 (s : State) (status : Status) :
    (s.raise status).nData1 = s.nData1 := rfl

@[simp] theorem State.raise_nDelim (s : State) (status : Status) :
    (s.raise status).nDelim = s.nDelim := rfl

@[simp] theorem State.raise_nRtcal (s : State) (status : Status) :
    (s.raise status).nRtcal = s.nRtcal := rfl

@[simp] theorem State.raise_nTrcal8 (s : State) (status : Status) :
    (s.raise status).nTrcal8 = s.nTrcal8 := rfl

@[simp] theorem State.raise_nTrcal643 (s : State) (status : Status) :
    (s.raise status).nTrcal643 = s.nTrcal643 := rfl

@[simp] theorem State.raise_inputs (s : State) (status : Status) :
    (s.raise status).inputs = s.inputs := rfl

@[simp] theorem State.raise_responses (s : State) (status : Status) :
    (s.raise status).responses = s.responses ++ [⟨status, []⟩] := rfl

@[simp] theorem State.present_mode (s : State) (r : Request) :
    (s.present r).mode = s.mode := rfl

@[simp] theorem State.present_cfgFs (s : State) (r : Request) :
    (s.present r).cfgFs = s.cfgFs := rfl

@[simp] theorem State.present_cfgP (s : State) (r : Request) :
    (s.present r).cfgP = s.cfgP := rfl

@[simp] theorem State.present_nPw (s : State) (r : Request) :
    (s.present r).nPw = s.nPw := rfl

@[simp] theorem State.present_nData0 (s : State) (r : Request) :
    (s.present r).nData0 = s.nData0 := rfl

@[simp] theorem State.present_nData1 (s : State) (r : Request) :
    (s.present r).nData1 = s.nData1 := rfl

@[simp] theorem State.present_nDelim (s : State) (r : Request) :
    (s.present r).nDelim = s.nDelim := rfl

@[simp] theorem State.present_nRtcal (s : State) (r : Request) :
    (s.present r).nRtcal = s.nRtcal := rfl

@[simp] theorem State.present_nTrcal8 (s : State) (r : Request) :
    (s.present r).nTrcal8 = s.nTrcal8 := rfl

@[simp] theorem State.present_nTrcal643 (s : State) (r : Request) :
    (s.present r).nTrcal643 = s.nTrcal643 := rfl

@[simp] theorem State.present_inputs (s : State) (r : Request) :
    (s.present r).inputs = .request r :: s.inputs := rfl

@[simp] theorem State.present_responses (s : State) (r : Request) :
    (s.present r).responses = s.responses := rfl

@[simp] theorem State.configured_mode (s : State) (samplingRate pulseWidthDivisor : Word) :
    (s.configured samplingRate pulseWidthDivisor).mode = .ready := rfl

@[simp] theorem State.configured_cfgFs (s : State) (samplingRate pulseWidthDivisor : Word) :
    (s.configured samplingRate pulseWidthDivisor).cfgFs = some samplingRate := rfl

@[simp] theorem State.configured_cfgP (s : State) (samplingRate pulseWidthDivisor : Word) :
    (s.configured samplingRate pulseWidthDivisor).cfgP = pulseWidthDivisor := rfl

@[simp] theorem State.configured_nPw (s : State) (samplingRate pulseWidthDivisor : Word) :
    (s.configured samplingRate pulseWidthDivisor).nPw = some (toCount (pulseCount samplingRate.toInt pulseWidthDivisor.toInt)) := rfl

@[simp] theorem State.configured_nData0 (s : State) (samplingRate pulseWidthDivisor : Word) :
    (s.configured samplingRate pulseWidthDivisor).nData0 = some (toCount (data0Count samplingRate.toInt pulseWidthDivisor.toInt)) := rfl

@[simp] theorem State.configured_nData1 (s : State) (samplingRate pulseWidthDivisor : Word) :
    (s.configured samplingRate pulseWidthDivisor).nData1 = some (toCount (data1Count samplingRate.toInt pulseWidthDivisor.toInt)) := rfl

@[simp] theorem State.configured_nDelim (s : State) (samplingRate pulseWidthDivisor : Word) :
    (s.configured samplingRate pulseWidthDivisor).nDelim = some (toCount (delimCount samplingRate.toInt)) := rfl

@[simp] theorem State.configured_nRtcal (s : State) (samplingRate pulseWidthDivisor : Word) :
    (s.configured samplingRate pulseWidthDivisor).nRtcal = some (toCount (rtcalCount samplingRate.toInt pulseWidthDivisor.toInt)) := rfl

@[simp] theorem State.configured_nTrcal8 (s : State) (samplingRate pulseWidthDivisor : Word) :
    (s.configured samplingRate pulseWidthDivisor).nTrcal8 = some (toCount (trcal8Count samplingRate.toInt)) := rfl

@[simp] theorem State.configured_nTrcal643 (s : State) (samplingRate pulseWidthDivisor : Word) :
    (s.configured samplingRate pulseWidthDivisor).nTrcal643 = some (toCount (trcal643Count samplingRate.toInt)) := rfl

@[simp] theorem State.configured_inputs (s : State) (samplingRate pulseWidthDivisor : Word) :
    (s.configured samplingRate pulseWidthDivisor).inputs = s.inputs := rfl

@[simp] theorem State.configured_responses (s : State) (samplingRate pulseWidthDivisor : Word) :
    (s.configured samplingRate pulseWidthDivisor).responses = s.responses := rfl

@[simp] theorem State.unconfigured_mode (s : State) :
    s.unconfigured.mode = .unconfigured := rfl

@[simp] theorem State.unconfigured_cfgFs (s : State) :
    s.unconfigured.cfgFs = none := rfl

@[simp] theorem State.unconfigured_cfgP (s : State) :
    s.unconfigured.cfgP = s.cfgP := rfl

@[simp] theorem State.unconfigured_nPw (s : State) :
    s.unconfigured.nPw = none := rfl

@[simp] theorem State.unconfigured_nData0 (s : State) :
    s.unconfigured.nData0 = none := rfl

@[simp] theorem State.unconfigured_nData1 (s : State) :
    s.unconfigured.nData1 = none := rfl

@[simp] theorem State.unconfigured_nDelim (s : State) :
    s.unconfigured.nDelim = none := rfl

@[simp] theorem State.unconfigured_nRtcal (s : State) :
    s.unconfigured.nRtcal = none := rfl

@[simp] theorem State.unconfigured_nTrcal8 (s : State) :
    s.unconfigured.nTrcal8 = none := rfl

@[simp] theorem State.unconfigured_nTrcal643 (s : State) :
    s.unconfigured.nTrcal643 = none := rfl

@[simp] theorem State.unconfigured_inputs (s : State) :
    s.unconfigured.inputs = s.inputs := rfl

@[simp] theorem State.unconfigured_responses (s : State) :
    s.unconfigured.responses = s.responses := rfl

@[simp] theorem State.takeReset_mode (s : State) :
    s.takeReset.mode = .unconfigured := rfl

@[simp] theorem State.takeReset_cfgFs (s : State) :
    s.takeReset.cfgFs = none := rfl

@[simp] theorem State.takeReset_cfgP (s : State) :
    s.takeReset.cfgP = 12#32 := rfl

@[simp] theorem State.takeReset_nPw (s : State) :
    s.takeReset.nPw = none := rfl

@[simp] theorem State.takeReset_nData0 (s : State) :
    s.takeReset.nData0 = none := rfl

@[simp] theorem State.takeReset_nData1 (s : State) :
    s.takeReset.nData1 = none := rfl

@[simp] theorem State.takeReset_nDelim (s : State) :
    s.takeReset.nDelim = none := rfl

@[simp] theorem State.takeReset_nRtcal (s : State) :
    s.takeReset.nRtcal = none := rfl

@[simp] theorem State.takeReset_nTrcal8 (s : State) :
    s.takeReset.nTrcal8 = none := rfl

@[simp] theorem State.takeReset_nTrcal643 (s : State) :
    s.takeReset.nTrcal643 = none := rfl

@[simp] theorem State.takeReset_inputs (s : State) :
    s.takeReset.inputs = s.inputs := rfl

@[simp] theorem State.takeReset_responses (s : State) :
    s.takeReset.responses = s.responses := rfl

/-- The sample output after one more response (R35). -/
theorem State.sampleOutput_respond (s : State) (status : Status) (samples : Samples) :
    (s.respond status samples).sampleOutput = s.sampleOutput ++ samples := by
  simp [State.sampleOutput]

/-- The register QUERY's preamble reads holds the TR-cal count of its rate value at `BLF_HZ` (R85, R133, R140). -/
theorem State.configured_trcal (s : State) (samplingRate pulseWidthDivisor : Word) (dr : DivideRatio) :
    (s.configured samplingRate pulseWidthDivisor).countReg (trcalReg dr) =
      some (toCount (trcalCount (rateOf dr) Config.blfHz samplingRate.toInt)) := by
  cases dr <;> rfl

end Sys2Proof.Machine
end

