-- ==== Sys2Proof/Laws/Ops.lean ====
section
/-! SUPPORT. One lemma for each shared operation that says what it can do, and what a good state gives the reads. -/

namespace Sys2Proof.Machine

open Sys2Proof.Claims

/-! ### Good states -/

/-- What a good READY state holds (R22 to R26). -/
theorem State.registersAgree_ready {s : State} (h : s.registersAgree = true) (hm : s.mode = .ready) :
    ∃ R : Word, s.cfgFs = some R ∧ configValid R.toInt s.cfgP.toInt = true ∧ s.configured R s.cfgP = s := by
  unfold State.registersAgree at h
  rw [hm] at h
  cases hc : s.cfgFs with
  | none => simp [hc] at h
  | some R =>
    simp [hc] at h
    exact ⟨R, rfl, h.1, h.2⟩

/-- What a good UNCONFIGURED state holds (R25). -/
theorem State.registersAgree_unconfigured {s : State} (h : s.registersAgree = true) (hm : s.mode = .unconfigured) :
    s.unconfigured = s := by
  unfold State.registersAgree at h
  rw [hm] at h
  cases hc : s.cfgFs with
  | none => simpa [hc] using h
  | some R => simp [hc] at h

/-- Goodness looks at the ten elements alone. -/
theorem State.registersAgree_of_sameRegisters {s t : State} (hst : SameRegisters s t) (h : s.registersAgree = true) :
    t.registersAgree = true := by
  obtain ⟨h1, h2, h3, h4, h5, h6, h7, h8, h9, h10⟩ := hst
  cases s
  cases t
  simp only at h1 h2 h3 h4 h5 h6 h7 h8 h9 h10
  subst h1 h2 h3 h4 h5 h6 h7 h8 h9 h10
  rename_i mode cfgFs _ _ _ _ _ _ _ _ _ _ _ _
  cases mode <;> cases cfgFs <;> simp [State.registersAgree, State.configured, State.unconfigured] at h ⊢ <;> exact h

theorem SameRegisters.refl (s : State) : SameRegisters s s := ⟨rfl, rfl, rfl, rfl, rfl, rfl, rfl, rfl, rfl, rfl⟩

theorem SameRegisters.respond (s : State) (status : Status) (w : Samples) : SameRegisters (s.respond status w) s :=
  ⟨rfl, rfl, rfl, rfl, rfl, rfl, rfl, rfl, rfl, rfl⟩

theorem State.registersAgree_configured (s : State) (R P : Word) (h : configValid R.toInt P.toInt = true) :
    (s.configured R P).registersAgree = true := by
  simp only [State.registersAgree, State.configured_mode, State.configured_cfgFs, State.configured_cfgP, h, Bool.true_and]
  exact decide_eq_true rfl

theorem State.registersAgree_of_unconfigured (s : State) : s.unconfigured.registersAgree = true :=
  decide_eq_true rfl

theorem State.registersAgree_takeReset (s : State) : s.takeReset.registersAgree = true :=
  decide_eq_true rfl

/-- The order of the counts a good READY state holds, as the templates need it (R135). -/
theorem State.counts_ordered {s : State} (h : s.registersAgree = true) (hm : s.mode = .ready) :
    1 ≤ held s.nPw ∧ held s.nPw < held s.nData0 ∧ held s.nData0 < held s.nData1 ∧ held s.nData1 < held s.nRtcal ∧
      held s.nPw < held s.nTrcal8 ∧ held s.nTrcal8 < held s.nTrcal643 := by
  obtain ⟨R, -, hv, hs⟩ := State.registersAgree_ready h hm
  obtain ⟨hR, hP, h1, h2, h3⟩ := (configValid_iff _ _).1 hv
  have hRlt : R.toInt < 2 ^ 31 := by have := BitVec.toInt_lt (x := R); simpa using this
  have hPlt : s.cfgP.toInt < 2 ^ 31 := by have := BitVec.toInt_lt (x := s.cfgP); simpa using this
  rw [← hs]
  simp only [State.configured_nPw, State.configured_nData0, State.configured_nData1, State.configured_nRtcal,
    State.configured_nTrcal8, State.configured_nTrcal643, held]
  rw [pulseCount_eq_floor _ _ (by omega) (by omega), data0Count_eq_floor _ _ (by omega) (by omega),
    data1Count_eq_floor _ _ (by omega) (by omega), rtcalCount_eq_floor _ _ (by omega) (by omega),
    trcal8Count_eq_floor _ (by omega), trcal643Count_eq_floor _ (by omega)]
  generalize R.toInt = R at *
  generalize s.cfgP.toInt = P at *
  have hx : P * R ≤ 2 ^ 62 := by nlinarith
  rw [show 2 * P * R = 2 * (P * R) by ring, show 4 * P * R = 4 * (P * R) by ring, show 6 * P * R = 6 * (P * R) by ring]
  generalize P * R = x at *
  rw [toCount_toNat _ (by omega) (by omega), toCount_toNat _ (by omega) (by omega), toCount_toNat _ (by omega) (by omega),
    toCount_toNat _ (by omega) (by omega), toCount_toNat _ (by omega) (by omega), toCount_toNat _ (by omega) (by omega)]
  omega

/-- In a good READY state every count register holds a value (R25). -/
theorem State.countReg_isSome {s : State} (h : s.registersAgree = true) (hm : s.mode = .ready) (reg : CountReg) :
    (s.countReg reg).isSome = true := by
  obtain ⟨R, -, -, hs⟩ := State.registersAgree_ready h hm
  rw [← hs]
  cases reg <;> rfl

/-! ### Reads and rendering -/

theorem readCount_ok {s : State} {reg : CountReg} (h : (s.countReg reg).isSome = true) :
    readCount s reg = .ok (held (s.countReg reg)) := by
  unfold readCount
  cases hc : s.countReg reg with
  | none => simp [hc] at h
  | some c => rfl

theorem readTemplate_ok {s : State} {reg : CountReg} (hp : s.nPw.isSome = true) (h : (s.countReg reg).isSome = true)
    (hle : held s.nPw ≤ held (s.countReg reg)) :
    readTemplate s reg = .ok (templateOf s (s.countReg reg)) := by
  have hp' : readCount s .nPw = .ok (held s.nPw) := readCount_ok (reg := .nPw) hp
  simp [readTemplate, hp', readCount_ok h, hle, templateOf, pulseTemplate]

/-- In a good READY state the templates are those of R136 and R137. -/
theorem readTemplate_of_agree {s : State} (h : s.registersAgree = true) (hm : s.mode = .ready) (reg : CountReg)
    (hreg : reg ≠ .nDelim) : readTemplate s reg = .ok (templateOf s (s.countReg reg)) := by
  have ho := State.counts_ordered h hm
  refine readTemplate_ok (State.countReg_isSome h hm .nPw) (State.countReg_isSome h hm reg) ?_
  cases reg <;> simp only [State.countReg] <;> first | omega | exact absurd rfl hreg

theorem readDelimiter_of_agree {s : State} (h : s.registersAgree = true) (hm : s.mode = .ready) :
    readDelimiter s = .ok (List.replicate (held s.nDelim) false) := by
  simp [readDelimiter, readCount_ok (State.countReg_isSome h hm .nDelim), State.countReg, delimiterShape]

@[simp] theorem joinSegments_ok (x y : Samples) : joinSegments (.ok x) (.ok y) = .ok (x ++ y) := rfl

theorem frameSync_of_agree {s : State} (h : s.registersAgree = true) (hm : s.mode = .ready) :
    frameSync s = .ok (frameSyncOf s) := by
  simp [frameSync, readDelimiter_of_agree h hm, readTemplate_of_agree h hm, State.countReg, frameSyncOf]

theorem preamble_of_agree {s : State} (h : s.registersAgree = true) (hm : s.mode = .ready) (dr : DivideRatio) :
    preamble s dr = .ok (preambleOf s dr) := by
  cases dr <;>
    simp [preamble, frameSync_of_agree h hm, readTemplate_of_agree h hm, State.countReg, trcalReg, preambleOf, trcalOf]

theorem encodeSymbols_of_agree {s : State} (h : s.registersAgree = true) (hm : s.mode = .ready) (b : Bits) :
    encodeSymbols s b = .ok (encodeOf s b) := by
  have : symbols (templateOf s s.nData0) (templateOf s s.nData1) b = encodeOf s b := by
    simp [symbols, encodeOf]
    rfl
  simp [encodeSymbols, readTemplate_of_agree h hm, State.countReg, this]

/-! ### Ending a request -/

theorem whenReady_unconfigured {s : State} (h : s.mode = .unconfigured) (body : Host.Outcome State Fault Refusal) :
    whenReady s body = .next (s.raise .notConfigured) := by simp [whenReady, h]

theorem whenReady_ready {s : State} (h : s.mode = .ready) (body : Host.Outcome State Fault Refusal) :
    whenReady s body = body := by simp [whenReady, h]

/-- `emitFrame` in a good READY state (R160). -/
theorem emitFrame_of_agree {s : State} (h : s.registersAgree = true) (hm : s.mode = .ready) (framing : Samples)
    (frame : Bits) : emitFrame s (.ok framing) frame = .next (s.respond .ok (framing ++ encodeOf s frame)) := by
  simp [emitFrame, encodeSymbols_of_agree h hm]

/-- All that `emitFrame` can do: one response with status OK, or the fault of a read. -/
theorem emitFrame_next {s t : State} {framing : Except Fault Samples} {frame : Bits}
    (h : emitFrame s framing frame = .next t) : ∃ w, t = s.respond .ok w := by
  unfold emitFrame at h
  split at h
  · cases h
    exact ⟨_, rfl⟩
  · cases h

/-- All that a request body under the mode check can do. -/
theorem whenReady_next {s t : State} {body : Host.Outcome State Fault Refusal} (h : whenReady s body = .next t) :
    (s.mode = .unconfigured ∧ t = s.raise .notConfigured) ∨ (s.mode = .ready ∧ body = .next t) := by
  cases hm : s.mode
  · rw [whenReady_unconfigured hm] at h
    cases h
    exact .inl ⟨rfl, rfl⟩
  · rw [whenReady_ready hm] at h
    exact .inr ⟨rfl, h⟩

/-! ### Ports -/

theorem takeInput_idle {s : State} (h : s.inputs = []) : takeInput s = .idle := by simp [takeInput, h]

theorem takeInput_reset {s : State} {rest : List PortEvent} (h : s.inputs = .reset :: rest) :
    takeInput s = .reset { s with inputs := rest } := by simp [takeInput, h]

theorem takeInput_request {s : State} {r : Request} {rest : List PortEvent} (h : s.inputs = .request r :: rest) :
    takeInput s = .request r { s with inputs := rest } := by simp [takeInput, h]

/-- All that turning a record away can do when it leaves a next state. -/
theorem turnAway_next {e : DecodeError} {s t : State} (h : turnAway e s = .next t) :
    e = .unnamedCode ∧ t = s.raise .illegalRequest := by
  cases e <;> simp [turnAway] at h
  exact ⟨rfl, h.symm⟩

end Sys2Proof.Machine
end

