-- ==== Sys2Proof/Laws/PerInstr.lean ====
section
/-! SUPPORT. Statements for every instruction, one lemma per constructor: the record of an instruction carries the kind code
of spec/30_encoding.md R70 and exactly the fields of R71, each of its width. -/

namespace Sys2Proof

/-- The widths of the fields R71 gives the request, in its order; the mask's is `mask_len`. -/
def Laws.recordWidths : Instr → List Nat
  | .select _ _ _ _ _ mask _ => [3, 32, 2, 32, 32, mask.length, 1]
  | .query _ _ _ _ _ _ _ => [1, 2, 1, 2, 2, 1, 32]
  | .queryrep _ => [2]
  | .queryadjust _ _ => [2, 3]
  | .ack _ => [16]
  | .configure _ _ => [32, 32]
  | .reserved6 => []
  | .reserved7 => []

/-- The kind code of the request (R70). -/
def Laws.recordKind : Instr → Nat
  | .select _ _ _ _ _ _ _ => 0
  | .query _ _ _ _ _ _ _ => 1
  | .queryrep _ => 2
  | .queryadjust _ _ => 3
  | .ack _ => 4
  | .configure _ _ => 5
  | .reserved6 => 6
  | .reserved7 => 7

/-- The record of `i` has its kind code and its field widths. -/
def Laws.RecordShape.Statement (i : Instr) : Prop :=
  (encode i).reqKind.toNat = Laws.recordKind i ∧ (encode i).fields.map List.length = Laws.recordWidths i

theorem Laws.RecordShape.select (target : SelectTarget) (action : Word) (memBank : MemBank) (pointer length : Word)
    (mask : Bits) (trunc : Bool) :
    Laws.RecordShape.Statement (.select target action memBank pointer length mask trunc) := by
  simp [Laws.RecordShape.Statement, encode, Laws.recordKind, Laws.recordWidths]

theorem Laws.RecordShape.query (dr : DivideRatio) (miller : Miller) (trext : Bool) (sel : Sel) (session : Session)
    (target : InvTarget) (q : Word) : Laws.RecordShape.Statement (.query dr miller trext sel session target q) := by
  simp [Laws.RecordShape.Statement, encode, Laws.recordKind, Laws.recordWidths]

theorem Laws.RecordShape.queryrep (session : Session) : Laws.RecordShape.Statement (.queryrep session) := by
  simp [Laws.RecordShape.Statement, encode, Laws.recordKind, Laws.recordWidths]

theorem Laws.RecordShape.queryadjust (session : Session) (updn : UpDn) :
    Laws.RecordShape.Statement (.queryadjust session updn) := by
  simp [Laws.RecordShape.Statement, encode, Laws.recordKind, Laws.recordWidths]

theorem Laws.RecordShape.ack (rn16 : BitVec 16) : Laws.RecordShape.Statement (.ack rn16) := by
  simp [Laws.RecordShape.Statement, encode, Laws.recordKind, Laws.recordWidths]

theorem Laws.RecordShape.configure (samplingRate pulseWidthDivisor : Word) :
    Laws.RecordShape.Statement (.configure samplingRate pulseWidthDivisor) := by
  simp [Laws.RecordShape.Statement, encode, Laws.recordKind, Laws.recordWidths]

theorem Laws.RecordShape.reserved6 : Laws.RecordShape.Statement .reserved6 := by
  simp [Laws.RecordShape.Statement, encode, Laws.recordKind, Laws.recordWidths]

theorem Laws.RecordShape.reserved7 : Laws.RecordShape.Statement .reserved7 := by
  simp [Laws.RecordShape.Statement, encode, Laws.recordKind, Laws.recordWidths]

end Sys2Proof
end

