-- ==== Sys2Proof/Laws/Step.lean ====
section
/-! SUPPORT. What `exec` and `step` can do when they answer a next state, said once. -/

namespace Sys2Proof.Machine

open Sys2Proof.Claims

/-- All that `exec` can do: a command or a reserved kind appends one response and writes nothing; CONFIGURE writes the
profile, or discards it, and appends one response. -/
theorem exec_cases {i : Instr} {s t : State} (h : exec i s = .next t) :
    (isCommand i = true ∧ s.mode = .unconfigured ∧ t = s.respond .notConfigured []) ∨
    (isCommand i = true ∧ isAccepted i = false ∧ s.mode = .ready ∧ t = s.respond .maskLengthMismatch []) ∨
    (isAccepted i = true ∧ s.mode = .ready ∧ ∃ w, t = s.respond .ok w) ∨
    ((i = .reserved6 ∨ i = .reserved7) ∧ t = s.respond .illegalRequest []) ∨
    (∃ R P : Word, i = .configure R P ∧ configValid R.toInt P.toInt = true ∧ t = (s.configured R P).respond .ok []) ∨
    (∃ R P : Word, i = .configure R P ∧ configValid R.toInt P.toInt = false ∧
      t = s.unconfigured.respond .configInvalid []) := by
  cases i with
  | select g a b p l m x =>
    rcases whenReady_next h with ⟨hm, rfl⟩ | ⟨hm, h⟩
    · exact .inl ⟨rfl, hm, rfl⟩
    · split at h
      · rename_i hl
        exact .inr (.inr (.inl ⟨by simp [isAccepted, hl], hm, emitFrame_next h⟩))
      · rename_i hl
        cases h
        exact .inr (.inl ⟨rfl, by simp [isAccepted, hl], hm, rfl⟩)
  | query d m x e n g q =>
    rcases whenReady_next h with ⟨hm, rfl⟩ | ⟨hm, h⟩
    · exact .inl ⟨rfl, hm, rfl⟩
    · exact .inr (.inr (.inl ⟨rfl, hm, emitFrame_next h⟩))
  | queryrep n =>
    rcases whenReady_next h with ⟨hm, rfl⟩ | ⟨hm, h⟩
    · exact .inl ⟨rfl, hm, rfl⟩
    · exact .inr (.inr (.inl ⟨rfl, hm, emitFrame_next h⟩))
  | queryadjust n u =>
    rcases whenReady_next h with ⟨hm, rfl⟩ | ⟨hm, h⟩
    · exact .inl ⟨rfl, hm, rfl⟩
    · exact .inr (.inr (.inl ⟨rfl, hm, emitFrame_next h⟩))
  | ack r =>
    rcases whenReady_next h with ⟨hm, rfl⟩ | ⟨hm, h⟩
    · exact .inl ⟨rfl, hm, rfl⟩
    · exact .inr (.inr (.inl ⟨rfl, hm, emitFrame_next h⟩))
  | configure R P =>
    simp only [exec, execConfigure] at h
    split at h
    · rename_i hv
      cases h
      exact .inr (.inr (.inr (.inr (.inl ⟨R, P, rfl, hv, rfl⟩))))
    · rename_i hv
      cases h
      exact .inr (.inr (.inr (.inr (.inr ⟨R, P, rfl, by simpa using hv, rfl⟩))))
  | reserved6 =>
    cases h
    exact .inr (.inr (.inr (.inl ⟨.inl rfl, rfl⟩)))
  | reserved7 =>
    cases h
    exact .inr (.inr (.inr (.inl ⟨.inr rfl, rfl⟩)))

/-- All that a step can do. -/
theorem step_cases {s t : State} (h : step s = .next t) :
    (s.inputs = [] ∧ t = s) ∨
    (∃ rest, s.inputs = .reset :: rest ∧ t = State.takeReset { s with inputs := rest }) ∨
    (∃ r rest i, s.inputs = .request r :: rest ∧ decode r = .ok i ∧ exec i { s with inputs := rest } = .next t) ∨
    (∃ r rest, s.inputs = .request r :: rest ∧ decode r = .error .unnamedCode ∧
      t = State.respond { s with inputs := rest } .illegalRequest []) := by
  unfold step at h
  cases hi : s.inputs with
  | nil =>
    rw [takeInput_idle hi] at h
    cases h
    exact .inl ⟨rfl, rfl⟩
  | cons e rest =>
    cases e with
    | reset =>
      rw [takeInput_reset hi] at h
      cases h
      exact .inr (.inl ⟨rest, rfl, rfl⟩)
    | request r =>
      rw [takeInput_request hi] at h
      cases hd : decode r with
      | ok i =>
        simp only [hd] at h
        exact .inr (.inr (.inl ⟨r, rest, i, rfl, hd, h⟩))
      | error e =>
        simp only [hd] at h
        obtain ⟨rfl, rfl⟩ := turnAway_next h
        exact .inr (.inr (.inr ⟨r, rest, rfl, hd, rfl⟩))

end Sys2Proof.Machine
end

