-- ==== Sys2Proof/Tests/Slice0.lean ====
section
/-! SUPPORT. The model's own tests, each on expected values of spec/95_test_vectors.md or of a rule's worked example, and
for every statement with premises a witness that meets them. -/

namespace Sys2Proof.Tests

open Sys2Proof Sys2Proof.Machine Sys2Proof.Claims

/-! ### Helpers -/

/-- A bit string in frame order; spaces group fields and are no bits (95_test_vectors.md, notation). -/
def bits (text : String) : Bits :=
  text.toList.filterMap fun c => if c = '1' then some true else if c = '0' then some false else none

/-- A waveform written as runs. -/
def runs (r : List (Nat × Bool)) : Samples :=
  r.flatMap fun x => List.replicate x.1 x.2

/-- The end state of program P1: the reference profile. -/
def reference : State where
  mode := .ready
  cfgFs := some 1000000
  cfgP := 12
  nPw := some 12
  nData0 := some 24
  nData1 := some 48
  nDelim := some 12
  nRtcal := some 72
  nTrcal8 := some 200
  nTrcal643 := some 533
  inputs := []
  responses := []

/-- Status and sample count of the last response of a next state. -/
def answer (o : Host.Outcome State Fault Refusal) : Option (Status × Nat) :=
  match o with
  | .next s =>
    match s.responses.getLast? with
    | some r => some (r.status, r.samples.length)
    | none => none
  | .fault _ => none
  | .refused _ => none

/-- The next state, where there is one. -/
def after (o : Host.Outcome State Fault Refusal) : Option State :=
  match o with
  | .next s => some s
  | .fault _ => none
  | .refused _ => none

/-- The status of the one request record presented to a state. -/
def statusOf (s : State) (r : Request) : Option (Status × Nat) :=
  answer (step (s.present r))

/-! ### Well-formedness (R71) -/

theorem test_wellFormed_refuses_a_mask_over_maskMax :
    (Instr.select .sl 0 .epc 0 0 (List.replicate (Config.maskMax + 1) true) false).wellFormed = false := by
  have h := (maskFits_iff (Config.maskMax + 1)).not.2 (by omega)
  simpa [Instr.wellFormed] using h

theorem test_wellFormed_takes_a_mask_of_255 :
    (Instr.select .sl 0 .epc 0 255 (List.replicate 255 true) false).wellFormed = true := by decide +kernel

/-! ### Decoding: records written out from R70, R71 and the code tables -/

theorem test_decode_select_P2 :
    decode ⟨0b000, [bits "100", bits "00000000000000000000000000000100", bits "01",
      bits "00000000000000000000000000100000", bits "00000000000000000000000000001000", bits "11100010", bits "0"]⟩ =
      .ok (.select .sl 4 .epc 32 8 (bits "11100010") false) := by decide +kernel

theorem test_decode_query_V51 :
    decode ⟨0b001, [bits "1", bits "10", bits "1", bits "11", bits "10", bits "1",
      bits "00000000000000000000000000001111"]⟩ = .ok (.query .dr643 .m4 true .sl .s2 .b 15) := by decide +kernel

theorem test_decode_queryrep : decode ⟨0b010, [bits "01"]⟩ = .ok (.queryrep .s1) := by decide +kernel

theorem test_decode_queryadjust : decode ⟨0b011, [bits "10", bits "011"]⟩ = .ok (.queryadjust .s2 .decrease) := by
  decide +kernel

theorem test_decode_ack : decode ⟨0b100, [bits "1010101111001101"]⟩ = .ok (.ack 0xABCD) := by decide +kernel

theorem test_decode_configure :
    decode ⟨0b101, [bits "00000000000011110100001001000000", bits "00000000000000000000000000001100"]⟩ =
      .ok (.configure 1000000 12) := by decide +kernel

theorem test_decode_reserved : decode ⟨0b110, [bits "1"]⟩ = .ok .reserved6 ∧ decode ⟨0b111, []⟩ = .ok .reserved7 := by
  decide +kernel

/-- R73: the unnamed codes; a word32 of 31 bits is no field of any kind. -/
theorem test_decode_rejects_by_name :
    decode ⟨0b011, [bits "00", bits "111"]⟩ = .error .unnamedCode ∧
      decode ⟨0b001, [bits "0", bits "00", bits "0", bits "01", bits "00", bits "0", bitsOfNat 32 0]⟩ =
        .error .unnamedCode ∧
      decode ⟨0b000, [bits "101", bitsOfNat 32 0, bits "00", bitsOfNat 32 0, bitsOfNat 32 0, [], bits "0"]⟩ =
        .error .unnamedCode ∧
      decode ⟨0b101, [bitsOfNat 31 0, bitsOfNat 32 0]⟩ = .error .fieldsNotOfKind := by decide +kernel

/-- The rows of spec/opcode_table.json by their fixed bits. -/
theorem test_table_rows_decode :
    decodeTableWord 8 10 = some (.select .invS0 0 .fileType 0 0 [] false) ∧
      decodeTableWord 8 8 = some (.query .dr8 .m1 false .all .s0 .a 0) ∧ decodeTableWord 8 0 = some (.queryrep .s0) ∧
      decodeTableWord 8 9 = some (.queryadjust .s0 .unchanged) ∧ decodeTableWord 8 1 = some (.ack 0) ∧
      decodeTableWord 8 5 = some (.configure 0 0) ∧ decodeTableWord 8 6 = some .reserved6 ∧
      decodeTableWord 8 7 = some .reserved7 ∧ decodeTableWord 8 11 = none := by decide +kernel

/-- V74: the first step after reset runs the presented command, which is refused. -/
theorem test_fetchWord_runs : answer (step (State.reset.withFetchWord 8 1)) = some (.notConfigured, 0) := by
  decide +kernel

/-! ### EBV (V1 to V12) -/

theorem test_ebv_V1_V3_V4 :
    ebvEncode [] = bits "00000000" ∧ ebvEncode (bits "1111111") = bits "01111111" ∧
      ebvEncode (bits "11111111") = bits "10000001 01111111" := by decide +kernel

theorem test_pointer_V9_V10_V11 :
    pointerField 128 = bits "10000000 10000000 10000000 10000001 00000000" ∧
      pointerField 0x12345678 = bits "10000001 10010001 11010001 10101100 01111000" ∧
      pointerField (-1) = bits "10001111 11111111 11111111 11111111 01111111" := by decide +kernel

/-! ### CRC (V20 to V33) -/

theorem test_crc5_V20_V22 :
    crc5 (bits "10000000000000000") = bits "10000" ∧ crc5 [] = bits "01001" ∧ crc5 (bits "00000") = bits "10011" ∧
      crc5 (bits "11111") = bits "00010" := by decide +kernel

theorem test_crc16_V31_V33 :
    crc16 [] = bitsOfNat 16 0 ∧ crc16 (bits "0") = bitsOfNat 16 0x1020 ∧ crc16 (bits "1") = bitsOfNat 16 0x0001 ∧
      crc16 (bits "00000000") = bitsOfNat 16 0x1E0F ∧ crc16 (bits "11111111") = bitsOfNat 16 0x00FF := by decide +kernel

/-! ### Counts and validity (V40 to V49e) -/

theorem test_counts_V44 :
    pulseCount 1062500 12 = 12 ∧ data0Count 1062500 12 = 25 ∧ data1Count 1062500 12 = 51 ∧ delimCount 1062500 = 12 ∧
      rtcalCount 1062500 12 = 76 ∧ trcal8Count 1062500 = 212 ∧ trcal643Count 1062500 = 566 := by decide +kernel

theorem test_valid_V45_to_V49e :
    configValid 83334 12 = true ∧ configValid 83333 12 = false ∧ configValid 999999 1 = false ∧
      configValid 40000 25 = false ∧ configValid 1000000 199 = true ∧ configValid 1000000 200 = false ∧
      configValid 0 12 = false ∧ configValid 1000000 0 = false ∧ configValid (-5) 12 = false ∧
      configValid 2147483647 12 = true ∧ configValid 100000 10 = true := by decide +kernel

/-! ### Frames (V53 to V59b) and waveforms (V40b, V40d, V66w) -/

theorem test_query_frame_V53 :
    queryFrame .dr8 .m2 false .notSl .s3 .b 17 = bits "1000 0 01 0 10 11 1 0001 01011" := by decide +kernel

theorem test_select_frame_V59a :
    selectFrame .invS3 9 .tid (-1) 4 (bits "1011") true =
      bits "1010 011 001 10 10001111 11111111 11111111 11111111 01111111 00000100 1011 1" ++ bitsOfNat 16 0x4297 := by
  decide +kernel

theorem test_framing_V40d :
    after (emitFrame reference (preamble reference .dr643) []) =
      some (reference.respond .ok (runs [(12, false), (12, true), (12, false), (60, true), (12, false), (521, true),
        (12, false)])) := by decide +kernel

/-! ### The instructions, one step each -/

theorem test_select_V57 :
    answer (exec (.select .invS0 0 .fileType 0 8 (bits "00000000") false) reference) = some (.ok, 2484) := by
  decide +kernel

theorem test_select_V72_mismatch :
    answer (exec (.select .invS0 0 .fileType 0 264 (bits "00000000") false) reference) =
      some (.maskLengthMismatch, 0) := by decide +kernel

theorem test_query_V51 : answer (exec (.query .dr643 .m4 true .sl .s2 .b 15) reference) = some (.ok, 1505) := by
  decide +kernel

theorem test_query_V54_truncates : answer (exec (.query .dr8 .m8 true .all .s0 .a (-1)) reference) = some (.ok, 1100) := by
  decide +kernel

theorem test_queryrep_V66w :
    after (exec (.queryrep .s3) reference) = some (reference.respond .ok
      (runs [(12, false), (12, true), (12, false), (60, true), (12, false), (12, true), (12, false), (12, true),
        (12, false), (36, true), (12, false), (36, true), (12, false)])) := by decide +kernel

theorem test_queryadjust_V69 : answer (exec (.queryadjust .s3 .increase) reference) = some (.ok, 468) := by
  decide +kernel

theorem test_ack_V62 : answer (exec (.ack 0xABCD) reference) = some (.ok, 804) := by decide +kernel

theorem test_ack_V74 : answer (exec (.ack 0x1234) State.reset) = some (.notConfigured, 0) := by decide +kernel

theorem test_configure_P1 :
    after (exec (.configure 1000000 12) State.reset) = some (reference.respond .ok []) := by decide +kernel

theorem test_configure_V76 :
    after (exec (.configure 50000 12) reference) = some (State.reset.respond .configInvalid []) := by decide +kernel

theorem test_reserved_V77 :
    answer (exec .reserved6 reference) = some (.illegalRequest, 0) ∧
      answer (exec .reserved7 State.reset) = some (.illegalRequest, 0) := by decide +kernel

/-- V79a: an unnamed code is refused before MODE is looked at. -/
theorem test_illegal_V79a : statusOf State.reset ⟨3, [bits "00", bits "111"]⟩ = some (.illegalRequest, 0) := by
  decide +kernel

theorem test_reset_pulse :
    after (step (State.mk .ready (some 1000000) 13 (some 1) (some 2) (some 3) (some 4) (some 5) (some 6) (some 7) [.reset]
      [⟨.ok, [true]⟩])) = some (State.mk .unconfigured none 12 none none none none none none none [] [⟨.ok, [true]⟩]) := by
  decide +kernel

/-! ### Written requests (R96) -/

theorem test_text_P2_select :
    readLine "SELECT target=SL, action=4, mem_bank=EPC, pointer=32, length=8, mask=0b11100010, trunc=false".toList =
      some (.request (encode (.select .sl 4 .epc 32 8 (bits "11100010") false))) := by decide +kernel

theorem test_text_empty_mask_and_negative :
    readLine "SELECT target=INV_S1, action=0, mem_bank=EPC, pointer=-1, length=0, mask=[], trunc=true".toList =
        some (.request (encode (.select .invS1 0 .epc (-1) 0 [] true))) ∧
      readLine "QUERYADJUST session=S1, updn=INCREASE".toList = some (.request (encode (.queryadjust .s1 .increase))) ∧
      readLine "QUERYREP session=S7".toList = none := by decide +kernel

/-! ### Witnesses: states and operands that meet the premises of the statements -/

/-- The reference profile is a good READY state. -/
theorem reference_is_good : reference.registersAgree = true ∧ reference.mode = .ready ∧ reference.cfgFs = some 1000000 := by
  decide

theorem witness_reset_pulse : ∃ s : State, s.inputs = .reset :: [.reset] := ⟨{ reference with inputs := [.reset, .reset] }, rfl⟩

theorem witness_step_performs :
    ∃ (s : State) (r : Request) (i : Instr), s.inputs = .request r :: [] ∧ decode r = .ok i :=
  ⟨{ reference with inputs := [.request ⟨6, []⟩] }, ⟨6, []⟩, .reserved6, rfl, rfl⟩

theorem witness_nothing_presented : reference.inputs = [] := rfl

/-- A CONFIGURE with a word of 31 bits, and for each kind below 6 a record without fields. -/
theorem witness_not_carriable_fields :
    (∃ s : State, s.inputs = [.request ⟨5, [bitsOfNat 31 0, bitsOfNat 32 0]⟩]) ∧
      (∀ maskLen, [bitsOfNat 31 0, bitsOfNat 32 0].map List.length ≠ fieldWidths 5 maskLen) ∧
      ∀ k : BitVec 3, k.toNat < 6 → ∀ maskLen, ([] : List Bits).map List.length ≠ fieldWidths k maskLen := by
  refine ⟨⟨{ reference with inputs := [.request ⟨5, [bitsOfNat 31 0, bitsOfNat 32 0]⟩] }, rfl⟩, fun _ => by simp [fieldWidths, bitsOfNat], ?_⟩
  intro k hk maskLen h
  rw [List.map_nil] at h
  revert k
  have kinds : ∀ k : BitVec 3, k.toNat < 6 → (fieldWidths k maskLen).isEmpty = false := fun k hk => by
    unfold fieldWidths
    generalize k.toNat = n at hk
    interval_cases n <;> rfl
  exact fun k hk h => by simpa [← h] using kinds k hk

theorem witness_not_carriable_mask :
    ∃ (s : State) (m : Bits), s.inputs = [.request ⟨0, [wordBits 0#3, wordBits 0#32, wordBits 0#2, wordBits 0#32,
      wordBits 0#32, m, [true]]⟩] ∧ Config.maskMax < m.length :=
  ⟨{ reference with inputs := [.request ⟨0, [wordBits 0#3, wordBits 0#32, wordBits 0#2, wordBits 0#32, wordBits 0#32,
    List.replicate (Config.maskMax + 1) true, [true]]⟩] }, List.replicate (Config.maskMax + 1) true, rfl, by simp⟩

/-- Each clause: the kinds 6 and 7, the first unnamed `target`, the unnamed `sel`, and the first and last unnamed `updn`. -/
theorem witness_illegal :
    (⟨6, []⟩ : Request).reqKind = 6 ∧ (⟨7, [[true]]⟩ : Request).reqKind = 7 ∧
      (⟨0, [wordBits 0b101#3, wordBits 9#32, wordBits 0#2, wordBits 0#32, wordBits 0#32, [], [true]]⟩ : Request).fields.length
        = 7 ∧ ([] : Bits).length ≤ Config.maskMax ∧
      (⟨1, [wordBits 1#1, wordBits 0#2, [true], wordBits 0b01#2, wordBits 0#2, wordBits 0#1, wordBits 0#32]⟩ : Request).fields[3]?
        = some [false, true] ∧
      (⟨3, [wordBits 0#2, wordBits 0b001#3]⟩ : Request).fields[1]? = some [false, false, true] ∧
      (⟨3, [wordBits 0#2, wordBits 0b111#3]⟩ : Request).fields[1]? = some [true, true, true] :=
  ⟨rfl, rfl, rfl, Nat.zero_le _, by decide, by decide, by decide⟩

theorem witness_unconfigured_command : isCommand (.ack 0x1234) = true ∧ State.reset.mode = .unconfigured := by decide

theorem witness_configure_answers : ∃ t, exec (.configure 50000 12) reference = .next t := ⟨_, rfl⟩

/-- One bit too few, and a length that only truncation to 8 bits would make right (V72). -/
theorem witness_mismatch :
    reference.mode = .ready ∧ (((bits "0000000").length : Nat) : Int) ≠ (8#32).toInt ∧
      (((bits "00000000").length : Nat) : Int) ≠ (264#32).toInt := by decide

theorem witness_mismatch_only_select :
    ∃ t w, exec (.select .invS0 0 .epc 0 8 (bits "0000000") false) reference = .next t ∧
      t.responses = reference.responses ++ [⟨.maskLengthMismatch, w⟩] := ⟨_, [], rfl, rfl⟩

theorem witness_config_invalid :
    ∃ t resp, exec (.configure 50000 12) reference = .next t ∧ t.responses = reference.responses ++ [resp] ∧
      resp.status = .configInvalid := ⟨_, _, rfl, rfl, rfl⟩

theorem witness_priority :
    reference.registersAgree = true ∧ PortEvent.carriable (.request ⟨6, []⟩) = true ∧
      State.reset.registersAgree = true ∧ PortEvent.carriable (.request ⟨4, [bitsOfNat 16 0]⟩) = true ∧
      PortEvent.carriable (.request ⟨3, [bits "00", bits "111"]⟩) = true := by decide

theorem witness_error :
    ∃ t resp, step { reference with inputs := [.request ⟨6, []⟩] } = .next t ∧ t.responses = [resp] ∧ resp.status ≠ .ok :=
  ⟨_, _, rfl, rfl, by simp⟩

/-- Both clauses of CONFIGURE's rule, at the boundary: V45 and V46. -/
theorem witness_configure_clauses :
    (1 ≤ (83334#32).toInt ∧ 1000000 ≤ (12#32).toInt * (83334#32).toInt ∧ 1000000 ≤ 12 * (83334#32).toInt ∧
      (12#32).toInt * (83334#32).toInt / 1000000 < (83334#32).toInt / 5000) ∧
    ¬1000000 ≤ (12#32).toInt * (83333#32).toInt := by decide +kernel

/-- The smallest counts: every count of a pair with `P * R = 1`. -/
theorem witness_truncated_counts : pulseCount 1 1 = 0 ∧ data1Count 1 1 = 0 ∧ (1 : Int) ≤ 1 := by decide +kernel

theorem witness_valid_pair : configValid 1062500 12 = true ∧ configValid 100000 15 = true ∧ (500000 : Int) ∣ 15 * 100000 := by
  decide +kernel

/-- At `P * R = 1,500,000`, an odd multiple of 500,000, the second twice relation fails (log entry 15). -/
theorem test_twice_relation_fails_at_an_odd_multiple :
    pulseCount 100000 15 = 1 ∧ data0Count 100000 15 = 3 ∧ (15 * 100000 : Int) % 1000000 = 500000 := by decide +kernel

/-- Both branches: an accepted command, and a SELECT with one mask bit too few. -/
theorem witness_configure_then_command :
    configValid (1000000#32).toInt (12#32).toInt = true ∧
      ∀ i ∈ [Instr.queryrep .s0, .select .sl 0 .epc 0 8 (bits "1110001") false],
        isCommand i = true ∧ i.wellFormed = true ∧
          ∃ s : State, s.inputs = [.request (encode (.configure 1000000 12)), .request (encode i)] := by
  refine ⟨by decide, fun i hi => ?_⟩
  have hs : isCommand i = true ∧ i.wellFormed = true := by revert i; decide
  exact ⟨hs.1, hs.2, { State.reset with
    inputs := [.request (encode (.configure 1000000 12)), .request (encode i)] }, rfl⟩

theorem witness_accepted_either_way :
    isAccepted (.queryrep .s0) = true ∧ isAccepted (.select .sl 0 .epc 0 8 (bits "1110001") false) = false := by decide

/-- Both branches of SELECT's rule. -/
theorem witness_select_branches :
    (((bits "00000000").length : Nat) : Int) = (8#32).toInt ∧ (((bits "00000000").length : Nat) : Int) ≠ (264#32).toInt := by
  decide

theorem witness_accepted :
    isAccepted (.select .invS0 0 .fileType 0 8 (bits "00000000") false) = true ∧
      isAccepted (.query .dr8 .m1 false .all .s0 .a 0) = true ∧ isAccepted (.queryrep .s0) = true ∧
      isAccepted (.queryadjust .s0 .increase) = true ∧ isAccepted (.ack 0xABCD) = true := by decide

theorem witness_command_answers :
    isCommand (.queryrep .s0) = true ∧ isCommand (.ack 0) = true ∧ (Instr.ack 0).wellFormed = true ∧
      (after (exec (.queryrep .s0) reference)).isSome = true ∧ (after (exec (.ack 0) reference)).isSome = true := by
  decide +kernel

theorem witness_two_commands :
    ∃ u t, exec (.queryrep .s0) State.reset = .next u ∧ exec (.ack 0) u = .next t := ⟨_, _, rfl, rfl⟩

theorem witness_truncation : (9#32).toNat % 8 = (1#32).toNat % 8 ∧ (17#32).toNat % 16 = (1#32).toNat % 16 := by decide

theorem witness_same_frame :
    frameOf (.query .dr8 .m1 false .all .s0 .a 16) = frameOf (.query .dr8 .m1 false .all .s0 .a 0) ∧
      Instr.query .dr8 .m1 false .all .s0 .a 16 ≠ .query .dr8 .m1 false .all .s0 .a 0 := by decide +kernel

theorem witness_header_of_frame : headerOf (.queryrep .s0) <+: frameOf (.queryrep .s3) := by decide +kernel

theorem witness_ebv_block : (0 : Nat) < max 1 ((([] : Bits).length + 6) / 7) ∧ 4 < max 1 (((bitsOfNat 32 0).length + 6) / 7) := by
  decide

theorem witness_same_waveform :
    ∃ t w, exec (.queryrep .s0) reference = .next t ∧ t.responses = reference.responses ++ [⟨.ok, w⟩] := ⟨_, _, rfl, rfl⟩

theorem witness_encodable : (Instr.select .sl 4 .epc 32 8 (bits "11100010") false).wellFormed = true := by decide

theorem witness_record_decodes : (⟨2, [bits "01"]⟩ : Request).reqKind.toNat < 6 ∧ decode ⟨2, [bits "01"]⟩ = .ok (.queryrep .s1) := by
  decide +kernel

theorem witness_good_step : ∃ t, reference.registersAgree = true ∧ reference.inputsCarriable = true ∧ step reference = .next t :=
  ⟨reference, by decide, by decide, rfl⟩

theorem witness_register_write :
    ∃ t, step { reference with inputs := [.reset] } = .next t ∧ ¬SameRegisters t { reference with inputs := [.reset] } :=
  ⟨_, rfl, fun h => by have := h.mode; revert this; decide⟩

theorem witness_register_write_by_configure :
    ∃ t, step { State.reset with inputs := [.request (encode (.configure 1000000 12))] } = .next t ∧
      ¬SameRegisters t { State.reset with inputs := [.request (encode (.configure 1000000 12))] } :=
  ⟨_, rfl, fun h => by have := h.mode; revert this; decide +kernel⟩

theorem witness_run :
    ∃ t, Host.Core.run core 1 { State.reset with inputs := [.request (encode (.configure 1000000 12))] } = .next t ∧
      t.mode = .ready := ⟨_, rfl, by decide +kernel⟩

theorem witness_same_registers : SameRegisters reference { reference with responses := [⟨.ok, []⟩] } :=
  ⟨rfl, rfl, rfl, rfl, rfl, rfl, rfl, rfl, rfl, rfl⟩

end Sys2Proof.Tests
end

section
/-! From a good state with carriable input every step answers (progress) and leads to such a state again (preservation):
spec/10_state.md R34, spec/42_pie.md R135, spec/60_exceptions.md R203. -/

namespace Sys2Proof.Machine

/-! ### What good states keep -/

/-- A response writes none of the ten elements. -/
theorem State.registersAgree_respond {s : State} (h : s.registersAgree = true) (status : Status) (samples : Samples) :
    (s.respond status samples).registersAgree = true :=
  State.registersAgree_of_sameRegisters (s := s) ⟨rfl, rfl, rfl, rfl, rfl, rfl, rfl, rfl, rfl, rfl⟩ h

/-- What is presented at the ports is none of the ten elements. -/
theorem State.registersAgree_withInputs {s : State} (h : s.registersAgree = true) (rest : List PortEvent) :
    State.registersAgree { s with inputs := rest } = true :=
  State.registersAgree_of_sameRegisters (s := s) ⟨rfl, rfl, rfl, rfl, rfl, rfl, rfl, rfl, rfl, rfl⟩ h

theorem exec_keeps_registersAgree {i : Instr} {s t : State} (hs : s.registersAgree = true) (h : exec i s = .next t) :
    t.registersAgree = true := by
  rcases exec_cases h with ⟨-, -, rfl⟩ | ⟨-, -, -, rfl⟩ | ⟨-, -, w, rfl⟩ | ⟨-, rfl⟩ | ⟨R, P, -, hv, rfl⟩ |
    ⟨R, P, -, -, rfl⟩
  · exact State.registersAgree_respond hs _ _
  · exact State.registersAgree_respond hs _ _
  · exact State.registersAgree_respond hs _ _
  · exact State.registersAgree_respond hs _ _
  · exact State.registersAgree_respond (State.registersAgree_configured s R P hv) _ _
  · exact State.registersAgree_respond (State.registersAgree_of_unconfigured s) _ _

theorem step_keeps_registersAgree {s t : State} (hs : s.registersAgree = true) (h : step s = .next t) :
    t.registersAgree = true := by
  rcases step_cases h with ⟨-, rfl⟩ | ⟨rest, -, rfl⟩ | ⟨r, rest, i, -, -, he⟩ | ⟨r, rest, -, -, rfl⟩
  · exact hs
  · exact State.registersAgree_takeReset _
  · exact exec_keeps_registersAgree (State.registersAgree_withInputs hs rest) he
  · exact State.registersAgree_respond (State.registersAgree_withInputs hs rest) _ _

/-! ### What is presented -/

/-- No request presents anything. -/
theorem exec_inputs {i : Instr} {s t : State} (h : exec i s = .next t) : t.inputs = s.inputs := by
  rcases exec_cases h with ⟨-, -, rfl⟩ | ⟨-, -, -, rfl⟩ | ⟨-, -, w, rfl⟩ | ⟨-, rfl⟩ | ⟨R, P, -, -, rfl⟩ |
    ⟨R, P, -, -, rfl⟩ <;> rfl

/-- A step takes the next thing presented, if any, and presents nothing (R34, R59). -/
theorem step_inputs {s t : State} (h : step s = .next t) : t.inputs = s.inputs.tail := by
  rcases step_cases h with ⟨hi, rfl⟩ | ⟨rest, hi, rfl⟩ | ⟨r, rest, i, hi, -, he⟩ | ⟨r, rest, hi, -, rfl⟩
  · simp [hi]
  · simp [hi]
  · simp [hi, exec_inputs he]
  · simp [hi]

theorem step_keeps_inputsCarriable {s t : State} (hs : s.inputsCarriable = true) (h : step s = .next t) :
    t.inputsCarriable = true := by
  unfold State.inputsCarriable at hs ⊢
  rw [step_inputs h]
  rw [List.all_eq_true] at hs ⊢
  exact fun e he => hs e (List.mem_of_mem_tail he)

/-- A record the port can carry is a request, or its one flaw is an unnamed code (R71, R73). -/
theorem decode_of_carriable {r : Request} (h : (PortEvent.request r).carriable = true) :
    (∃ i, decode r = .ok i) ∨ decode r = .error .unnamedCode := by
  unfold PortEvent.carriable at h
  cases hd : decode r with
  | ok i => exact .inl ⟨i, rfl⟩
  | error e =>
    cases e with
    | unnamedCode => exact .inr rfl
    | fieldsNotOfKind => simp [hd] at h
    | maskTooLong => simp [hd] at h

/-! ### Progress -/

theorem whenReady_answers {s : State} {body : Host.Outcome State Fault Refusal}
    (h : s.mode = .ready → ∃ t, body = .next t) : ∃ t, whenReady s body = .next t := by
  cases hm : s.mode with
  | unconfigured => exact ⟨_, whenReady_unconfigured hm body⟩
  | ready => rw [whenReady_ready hm]; exact h hm

/-- Once the framing is rendered the whole waveform is: in a good READY state no read of a symbol's template faults. -/
theorem emitFrame_answers {s : State} (hs : s.registersAgree = true) (hm : s.mode = .ready)
    {framing : Except Fault Samples} {w : Samples} (hf : framing = .ok w) (frame : Bits) :
    ∃ t, emitFrame s framing frame = .next t := by
  rw [hf]
  exact ⟨_, emitFrame_of_agree hs hm w frame⟩

/-- A command framed by frame-sync answers in every good state (R139, R160). -/
theorem frameSyncCommand_answers {s : State} (hs : s.registersAgree = true) (frame : Bits) :
    ∃ t, whenReady s (emitFrame s (frameSync s) frame) = .next t :=
  whenReady_answers fun hm => emitFrame_answers hs hm (frameSync_of_agree hs hm) frame

/-- In a good state every instruction has a next state: a command's reads find values and templates long enough
(R135), and CONFIGURE and the reserved kinds read no register. -/
theorem exec_answers {s : State} (hs : s.registersAgree = true) (i : Instr) : ∃ t, exec i s = .next t := by
  cases i with
  | select target action memBank pointer length mask trunc =>
    refine whenReady_answers fun hm => ?_
    split
    · exact emitFrame_answers hs hm (frameSync_of_agree hs hm) _
    · exact ⟨_, rfl⟩
  | query dr miller trext sel session target q =>
    exact whenReady_answers fun hm => emitFrame_answers hs hm (preamble_of_agree hs hm dr) _
  | queryrep session => exact frameSyncCommand_answers hs _
  | queryadjust session updn => exact frameSyncCommand_answers hs _
  | ack rn16 => exact frameSyncCommand_answers hs _
  | configure R P =>
    simp only [exec, execConfigure]
    split
    · exact ⟨_, rfl⟩
    · exact ⟨_, rfl⟩
  | reserved6 => exact ⟨_, rfl⟩
  | reserved7 => exact ⟨_, rfl⟩

theorem step_answers {s : State} (hs : s.registersAgree = true) (hc : s.inputsCarriable = true) :
    ∃ t, step s = .next t := by
  unfold step
  cases hi : s.inputs with
  | nil => exact ⟨s, by rw [takeInput_idle hi]⟩
  | cons e rest =>
    cases e with
    | reset => exact ⟨_, by rw [takeInput_reset hi]⟩
    | request r =>
      rw [takeInput_request hi]
      have hr : (PortEvent.request r).carriable = true := by
        simp only [State.inputsCarriable, hi, List.all_cons, Bool.and_eq_true] at hc
        exact hc.1
      obtain ⟨i, hd⟩ | hd := decode_of_carriable hr
      · simpa only [hd] using exec_answers (State.registersAgree_withInputs hs rest) i
      · simp only [hd]
        exact ⟨_, rfl⟩

/-! ### The obligation -/

/-- Settles O56: progress (`step_answers`), and both halves of a good state with carriable input are kept by the
step. -/
theorem goodStatesNeverStop : Obligations.GoodStatesNeverStop := by
  intro s hs hc
  obtain ⟨t, ht⟩ := step_answers hs hc
  exact ⟨t, ht, step_keeps_registersAgree hs ht, step_keeps_inputsCarriable hc ht⟩

end Sys2Proof.Machine
end

section
/-! The frame determines an accepted command: the number of its bits tells which of the five it is, and each field is read
back from its place (spec/30_encoding.md R75 to R79, R83). -/

namespace Sys2Proof.Machine

open Sys2Proof.Claims

/-! ### Fields -/

/-- Two words whose truncated fields agree have the same low bits (R72). -/
theorem truncatedField_inj {w : Nat} (hw : w ≤ 32) {x y : Word} (h : truncatedField w x = truncatedField w y) :
    x.toNat % 2 ^ w = y.toNat % 2 ^ w := by
  rw [truncatedField_eq w hw, truncatedField_eq w hw] at h
  simpa only [valOf_bitsOfNat] using congrArg valOf h

theorem ebvBlocks_inj {k : Nat} {p q : Bits} (hp : p.length = 7 * k) (hq : q.length = 7 * k)
    (h : ebvBlocks k p = ebvBlocks k q) : p = q := by
  induction k generalizing p q with
  | zero => rw [List.eq_nil_of_length_eq_zero hp, List.eq_nil_of_length_eq_zero hq]
  | succ k ih =>
    have hblocks := (List.cons.inj h).2
    obtain ⟨htake, hrest⟩ := List.append_inj hblocks (by simp; omega)
    have hdrop : p.drop 7 = q.drop 7 := ih (by simp; omega) (by simp; omega) hrest
    rw [← List.take_append_drop 7 p, htake, hdrop, List.take_append_drop]

/-- An EBV field tells the input it packs among the inputs of one length (R102). -/
theorem ebvEncode_inj {b b' : Bits} (hl : b.length = b'.length) (h : ebvEncode b = ebvEncode b') : b = b' := by
  have hk : b'.length ≤ 7 * ebvBlockCount b'.length := by unfold ebvBlockCount; omega
  simp only [ebvEncode, hl] at h
  have hpadded := ebvBlocks_inj (by simp; omega) (by simp; omega) h
  exact List.append_cancel_left hpadded

theorem pointerField_inj {x y : Word} (h : pointerField x = pointerField y) : x = y := by
  have hbits := ebvEncode_inj (by simp) h
  have hmod := truncatedField_inj le_rfl hbits
  exact BitVec.eq_of_toNat_eq (by omega)

theorem selectTargetCode_inj {x y : SelectTarget} (h : selectTargetCode x = selectTargetCode y) : x = y := by
  simpa using congrArg selectTargetOf h

theorem memBankCode_inj {x y : MemBank} (h : memBankCode x = memBankCode y) : x = y := by
  simpa using congrArg memBankOf h

theorem drCode_inj {x y : DivideRatio} (h : drCode x = drCode y) : x = y := by
  simpa using congrArg drOf h

theorem millerCode_inj {x y : Miller} (h : millerCode x = millerCode y) : x = y := by
  simpa using congrArg millerOf h

theorem selCode_inj {x y : Sel} (h : selCode x = selCode y) : x = y := by
  simpa using congrArg selOf h

theorem sessionCode_inj {x y : Session} (h : sessionCode x = sessionCode y) : x = y := by
  simpa using congrArg sessionOf h

theorem invTargetCode_inj {x y : InvTarget} (h : invTargetCode x = invTargetCode y) : x = y := by
  simpa using congrArg invTargetOf h

theorem updnCode_inj {x y : UpDn} (h : updnCode x = updnCode y) : x = y := by
  simpa using congrArg updnOf h

/-! ### One frame, one command -/

/-- A Select frame carries every field, of `action` the low three bits; that both commands are accepted (R206) makes the
8-bit length field tell the whole `length`. -/
theorem selectFrame_inj {g g' : SelectTarget} {a a' p p' l l' : Word} {b b' : MemBank} {m m' : Bits} {x x' : Bool}
    (hl : (m.length : Int) = l.toInt) (hl' : (m'.length : Int) = l'.toInt)
    (h : selectFrame g a b p l m x = selectFrame g' a' b' p' l' m' x') :
    canonical (.select g a b p l m x) = canonical (.select g' a' b' p' l' m' x') := by
  obtain ⟨hcmd, -⟩ := List.append_inj' h (by simp)
  have hmask : m.length = m'.length := by simpa [selectBits] using congrArg List.length hcmd
  obtain ⟨h, hx⟩ := List.append_inj' hcmd rfl
  obtain ⟨h, hm⟩ := List.append_inj' h hmask
  obtain ⟨h, -⟩ := List.append_inj' h (by simp)
  obtain ⟨h, hp⟩ := List.append_inj' h (by simp)
  obtain ⟨h, hb⟩ := List.append_inj' h (by simp)
  obtain ⟨h, ha⟩ := List.append_inj' h (by simp)
  obtain ⟨-, hg⟩ := List.append_inj' h (by simp)
  have hlength : l = l' := BitVec.eq_of_toInt_eq (by rw [← hl, ← hl', hmask])
  have haction : a.toNat % 8 = a'.toNat % 8 := truncatedField_inj (by omega) ha
  rw [selectTargetCode_inj (wordBits_inj hg), memBankCode_inj (wordBits_inj hb), pointerField_inj hp, hlength, hm,
    List.singleton_inj.1 hx]
  simp only [canonical, haction]

/-- A Query frame carries every field, of `q` the low four bits. -/
theorem queryFrame_inj {d d' : DivideRatio} {m m' : Miller} {x x' : Bool} {e e' : Sel} {n n' : Session}
    {g g' : InvTarget} {q q' : Word} (h : queryFrame d m x e n g q = queryFrame d' m' x' e' n' g' q') :
    canonical (.query d m x e n g q) = canonical (.query d' m' x' e' n' g' q') := by
  obtain ⟨h, -⟩ := List.append_inj' h (by simp)
  obtain ⟨h, hq⟩ := List.append_inj' h (by simp)
  obtain ⟨h, hg⟩ := List.append_inj' h (by simp)
  obtain ⟨h, hn⟩ := List.append_inj' h (by simp)
  obtain ⟨h, he⟩ := List.append_inj' h (by simp)
  obtain ⟨h, hx⟩ := List.append_inj' h rfl
  obtain ⟨h, hm⟩ := List.append_inj' h (by simp)
  obtain ⟨-, hd⟩ := List.append_inj' h (by simp)
  have hq16 : q.toNat % 16 = q'.toNat % 16 := truncatedField_inj (by omega) hq
  rw [drCode_inj (wordBits_inj hd), millerCode_inj (wordBits_inj hm), List.singleton_inj.1 hx,
    selCode_inj (wordBits_inj he), sessionCode_inj (wordBits_inj hn), invTargetCode_inj (wordBits_inj hg)]
  simp only [canonical, hq16]

theorem queryrepFrame_inj {n n' : Session} (h : queryrepFrame n = queryrepFrame n') : n = n' :=
  sessionCode_inj (wordBits_inj (List.append_cancel_left h))

theorem queryadjustFrame_inj {n n' : Session} {u u' : UpDn} (h : queryadjustFrame n u = queryadjustFrame n' u') :
    n = n' ∧ u = u' := by
  obtain ⟨h, hu⟩ := List.append_inj' h (by simp)
  exact ⟨sessionCode_inj (wordBits_inj (List.append_cancel_left h)), updnCode_inj (wordBits_inj hu)⟩

theorem ackFrame_inj {r r' : BitVec 16} (h : ackFrame r = ackFrame r') : r = r' :=
  wordBits_inj (List.append_cancel_left h)

/-! ### The number of frame bits tells the command -/

theorem isCommand_of_isAccepted {i : Instr} (h : isAccepted i = true) : isCommand i = true := by
  cases i with
  | configure => exact h
  | reserved6 => exact h
  | reserved7 => exact h
  | _ => rfl

/-- The kind of a command and the number of bits of its frame (R175). -/
theorem frameOf_length_cases {i : Instr} (h : isCommand i = true) :
    (Laws.recordKind i = 0 ∧ 77 ≤ (frameOf i).length) ∨ (Laws.recordKind i = 1 ∧ (frameOf i).length = 22) ∨
      (Laws.recordKind i = 2 ∧ (frameOf i).length = 4) ∨ (Laws.recordKind i = 3 ∧ (frameOf i).length = 9) ∨
      (Laws.recordKind i = 4 ∧ (frameOf i).length = 18) := by
  cases i with
  | select =>
    refine .inl ⟨rfl, ?_⟩
    simp [frameOf, selectFrame, selectBits]
    omega
  | query => exact .inr (.inl ⟨rfl, by simp [frameOf, queryFrame, queryBits]⟩)
  | queryrep => exact .inr (.inr (.inl ⟨rfl, by simp [frameOf, queryrepFrame]⟩))
  | queryadjust => exact .inr (.inr (.inr (.inl ⟨rfl, by simp [frameOf, queryadjustFrame]⟩)))
  | ack => exact .inr (.inr (.inr (.inr ⟨rfl, by simp [frameOf, ackFrame]⟩)))
  | configure => cases h
  | reserved6 => cases h
  | reserved7 => cases h

theorem recordKind_eq_of_frameOf_length_eq {i j : Instr} (hi : isCommand i = true) (hj : isCommand j = true)
    (h : (frameOf i).length = (frameOf j).length) : Laws.recordKind i = Laws.recordKind j := by
  have := frameOf_length_cases hi
  have := frameOf_length_cases hj
  omega

theorem frameOf_determines_canonical {i j : Instr} (hi : isAccepted i = true) (hj : isAccepted j = true)
    (h : frameOf i = frameOf j) : canonical i = canonical j := by
  have hk : Laws.recordKind i = Laws.recordKind j :=
    recordKind_eq_of_frameOf_length_eq (isCommand_of_isAccepted hi) (isCommand_of_isAccepted hj) (congrArg List.length h)
  cases i with
  | select =>
    cases j with
    | select => exact selectFrame_inj (of_decide_eq_true hi) (of_decide_eq_true hj) h
    | _ => cases hk
  | query =>
    cases j with
    | query => exact queryFrame_inj h
    | _ => cases hk
  | queryrep =>
    cases j with
    | queryrep => rw [queryrepFrame_inj h]
    | _ => cases hk
  | queryadjust =>
    cases j with
    | queryadjust =>
      obtain ⟨rfl, rfl⟩ := queryadjustFrame_inj h
      rfl
    | _ => cases hk
  | ack =>
    cases j with
    | ack => rw [ackFrame_inj h]
    | _ => cases hk
  | configure => cases hi
  | reserved6 => cases hi
  | reserved7 => cases hi

end Sys2Proof.Machine
end

section
/-! In a good READY state the waveform determines an accepted command: it is a train of templates, each of which ends in a
falling edge, so the lengths of its segments, and with them the frame, can be read off it (spec/42_pie.md R136, R143;
spec/43_commands.md R160). -/

namespace Sys2Proof.Machine

open Sys2Proof.Claims

/-! ### Trains of templates -/

/-- The templates of the lengths `ns`, one after another (R136). -/
def pulseTrain (pw : Nat) (ns : List Nat) : Samples :=
  ns.flatMap (pulseTemplate pw)

theorem replicate_true_append_inj {a b : Nat} {x y : Samples}
    (h : List.replicate a true ++ false :: x = List.replicate b true ++ false :: y) : a = b ∧ x = y := by
  induction a generalizing b with
  | zero =>
    cases b with
    | zero => exact ⟨rfl, (List.cons.inj h).2⟩
    | succ b => exact absurd (List.cons.inj h).1 (by decide)
  | succ a ih =>
    cases b with
    | zero => exact absurd (List.cons.inj h).1 (by decide)
    | succ b =>
      obtain ⟨rfl, hxy⟩ := ih (List.cons.inj h).2
      exact ⟨rfl, hxy⟩

/-- The samples before a template's falling edge give its length, so it is read off the front of any waveform. -/
theorem pulseTemplate_append_inj {pw n m : Nat} {x y : Samples} (hpw : 1 ≤ pw) (hn : pw ≤ n) (hm : pw ≤ m)
    (h : pulseTemplate pw n ++ x = pulseTemplate pw m ++ y) : n = m ∧ x = y := by
  obtain ⟨k, rfl⟩ : ∃ k, pw = k + 1 := ⟨pw - 1, by omega⟩
  simp only [pulseTemplate, List.append_assoc, List.replicate_succ (n := k), List.cons_append] at h
  obtain ⟨hhigh, hlow⟩ := replicate_true_append_inj h
  exact ⟨by omega, List.append_cancel_left hlow⟩

theorem pulseTrain_ne_nil {pw n : Nat} (hpw : 1 ≤ pw) (ns : List Nat) : pulseTrain pw (n :: ns) ≠ [] := by
  intro h
  have := congrArg List.length h
  simp [pulseTrain, pulseTemplate] at this
  omega

theorem pulseTrain_inj {pw : Nat} {ns ms : List Nat} (hpw : 1 ≤ pw) (hn : ∀ n ∈ ns, pw ≤ n) (hm : ∀ m ∈ ms, pw ≤ m)
    (h : pulseTrain pw ns = pulseTrain pw ms) : ns = ms := by
  induction ns generalizing ms with
  | nil =>
    cases ms with
    | nil => rfl
    | cons m ms => exact absurd h.symm (pulseTrain_ne_nil hpw ms)
  | cons n ns ih =>
    cases ms with
    | nil => exact absurd h (pulseTrain_ne_nil hpw ns)
    | cons m ms =>
      rw [List.forall_mem_cons] at hn hm
      obtain ⟨rfl, hrest⟩ := pulseTemplate_append_inj hpw hn.1 hm.1 h
      rw [ih hn.2 hm.2 hrest]

/-! ### The segments of a command's waveform -/

/-- The length of the symbol of a bit (R137, R141). -/
def symbolLength (s : State) (bit : Bool) : Nat :=
  if bit then held s.nData1 else held s.nData0

/-- The length of TR-cal in the framing of a command, if it has one (R140): QUERY alone. -/
def trcalLengths (s : State) : Instr → List Nat
  | .query dr _ _ _ _ _ _ => [held (trcalOf s dr)]
  | _ => []

/-- The lengths of all templates in the waveform of a command, in order (R139 to R141, R160). -/
def segmentLengths (s : State) (i : Instr) : List Nat :=
  held s.nData0 :: held s.nRtcal :: (trcalLengths s i ++ (frameOf i).map (symbolLength s))

theorem encodeOf_eq_pulseTrain (s : State) (b : Bits) :
    encodeOf s b = pulseTrain (held s.nPw) (b.map (symbolLength s)) := by
  rw [encodeOf, pulseTrain, List.flatMap_map]
  congr 1
  funext bit
  cases bit <;> rfl

/-- The waveform of a command is the delimiter and a train of templates. -/
theorem waveform_eq_pulseTrain (s : State) {i : Instr} (h : isCommand i = true) :
    framingOf s i ++ encodeOf s (frameOf i) =
      List.replicate (held s.nDelim) false ++ pulseTrain (held s.nPw) (segmentLengths s i) := by
  have hframing : framingOf s i =
      List.replicate (held s.nDelim) false ++ (templateOf s s.nData0 ++ (templateOf s s.nRtcal ++
        pulseTrain (held s.nPw) (trcalLengths s i))) := by
    cases i with
    | query => simp [framingOf, preambleOf, frameSyncOf, trcalLengths, pulseTrain, templateOf, pulseTemplate]
    | select => simp [framingOf, frameSyncOf, trcalLengths, pulseTrain]
    | queryrep => simp [framingOf, frameSyncOf, trcalLengths, pulseTrain]
    | queryadjust => simp [framingOf, frameSyncOf, trcalLengths, pulseTrain]
    | ack => simp [framingOf, frameSyncOf, trcalLengths, pulseTrain]
    | configure => cases h
    | reserved6 => cases h
    | reserved7 => cases h
  rw [hframing, encodeOf_eq_pulseTrain]
  simp [segmentLengths, pulseTrain, templateOf, pulseTemplate]

/-- No segment is shorter than the low pulse it ends in (R135). -/
theorem nPw_le_of_mem_segmentLengths {s : State} (hs : s.registersAgree = true) (hm : s.mode = .ready) (i : Instr) :
    ∀ n ∈ segmentLengths s i, held s.nPw ≤ n := by
  have ho := State.counts_ordered hs hm
  have htrcal : ∀ n ∈ trcalLengths s i, held s.nPw ≤ n := by
    intro n hn
    cases i with
    | query dr =>
      rw [List.mem_singleton.1 hn]
      cases dr <;> simp only [trcalOf] <;> omega
    | _ => exact absurd hn List.not_mem_nil
  have hsymbol : ∀ bit, held s.nPw ≤ symbolLength s bit := by
    intro bit
    cases bit <;> simp only [symbolLength] <;> simp <;> omega
  simp only [segmentLengths, List.forall_mem_cons, List.forall_mem_append, List.forall_mem_map]
  exact ⟨by omega, by omega, htrcal, fun bit _ => hsymbol bit⟩

theorem symbolLength_injective {s : State} (hs : s.registersAgree = true) (hm : s.mode = .ready) :
    Function.Injective (symbolLength s) := by
  have ho := State.counts_ordered hs hm
  intro a b hab
  cases a <;> cases b <;> simp [symbolLength] at hab ⊢ <;> omega

theorem length_trcalLengths (s : State) (i : Instr) :
    (trcalLengths s i).length = if Laws.recordKind i = 1 then 1 else 0 := by
  cases i <;> rfl

/-- The number of segments tells the command, so it tells where the framing ends; the symbols then tell the frame. -/
theorem frameOf_eq_of_segmentLengths_eq {s : State} (hs : s.registersAgree = true) (hm : s.mode = .ready) {i j : Instr}
    (hi : isCommand i = true) (hj : isCommand j = true) (h : segmentLengths s i = segmentLengths s j) :
    frameOf i = frameOf j := by
  have hsegments : trcalLengths s i ++ (frameOf i).map (symbolLength s) =
      trcalLengths s j ++ (frameOf j).map (symbolLength s) := by
    simpa [segmentLengths] using h
  have htrcal : (trcalLengths s i).length = (trcalLengths s j).length := by
    have hcount := congrArg List.length hsegments
    simp only [List.length_append, List.length_map, length_trcalLengths] at hcount ⊢
    have hli := frameOf_length_cases hi
    have hlj := frameOf_length_cases hj
    split_ifs at hcount ⊢ <;> omega
  obtain ⟨-, hsymbols⟩ := List.append_inj hsegments htrcal
  exact List.map_injective_iff.2 (symbolLength_injective hs hm) hsymbols

/-! ### What an accepted command emits -/

/-- In a good READY state an accepted command answers with its framing and its frame (R160). -/
theorem exec_of_isAccepted {s : State} (hs : s.registersAgree = true) (hm : s.mode = .ready) {i : Instr}
    (hi : isAccepted i = true) : exec i s = .next (s.respond .ok (framingOf s i ++ encodeOf s (frameOf i))) := by
  have hsync (frame : Bits) : whenReady s (emitFrame s (frameSync s) frame) =
      .next (s.respond .ok (frameSyncOf s ++ encodeOf s frame)) := by
    rw [whenReady_ready hm, frameSync_of_agree hs hm, emitFrame_of_agree hs hm]
  cases i with
  | select target action memBank pointer length mask trunc =>
    simpa only [exec, execSelect, of_decide_eq_true hi, if_true, framingOf, frameOf] using hsync _
  | query dr =>
    rw [exec, execQuery, whenReady_ready hm, preamble_of_agree hs hm, emitFrame_of_agree hs hm]
    rfl
  | queryrep => exact hsync _
  | queryadjust => exact hsync _
  | ack => exact hsync _
  | configure => cases hi
  | reserved6 => cases hi
  | reserved7 => cases hi

/-- The samples with which an accepted command ends in a good READY state are its framing and its frame. -/
theorem eq_waveform_of_response {s t : State} (hs : s.registersAgree = true) (hm : s.mode = .ready) {i : Instr}
    (hi : isAccepted i = true) {w : Samples} (ht : exec i s = .next t)
    (hw : t.responses = s.responses ++ [⟨.ok, w⟩]) : w = framingOf s i ++ encodeOf s (frameOf i) := by
  rw [exec_of_isAccepted hs hm hi] at ht
  cases ht
  simpa using hw.symm

/-! ### The obligation -/

/-- Settles O49: the waveform is the delimiter and a train of templates, whose lengths can be read off it; they give the
frame, and the frame the command. -/
theorem waveformDeterminesTheCommand : Obligations.WaveformDeterminesTheCommand := by
  intro s t u i j w hs hm hi hj ht hu hwt hwu
  have hi' := isCommand_of_isAccepted hi
  have hj' := isCommand_of_isAccepted hj
  have hwave : framingOf s i ++ encodeOf s (frameOf i) = framingOf s j ++ encodeOf s (frameOf j) :=
    (eq_waveform_of_response hs hm hi ht hwt).symm.trans (eq_waveform_of_response hs hm hj hu hwu)
  rw [waveform_eq_pulseTrain s hi', waveform_eq_pulseTrain s hj'] at hwave
  have hlengths : segmentLengths s i = segmentLengths s j :=
    pulseTrain_inj (State.counts_ordered hs hm).1 (nPw_le_of_mem_segmentLengths hs hm i)
      (nPw_le_of_mem_segmentLengths hs hm j) (List.append_cancel_left hwave)
  exact frameOf_determines_canonical hi hj (frameOf_eq_of_segmentLengths_eq hs hm hi' hj' hlengths)

end Sys2Proof.Machine
end

section
/-! What the ports and the step do: which event a step takes, what it writes, and what a run gives
(spec/10_state.md R22, R28, R33 to R37). -/

namespace Sys2Proof.Machine

open Sys2Proof.Claims

/-! ### One step, by the next presented event -/

theorem step_of_inputs_nil {s : State} (h : s.inputs = []) : step s = .next s := by
  simp only [step, takeInput_idle h]

theorem step_of_inputs_reset {s : State} {rest : List PortEvent} (h : s.inputs = .reset :: rest) :
    step s = .next (State.takeReset { s with inputs := rest }) := by
  simp only [step, takeInput_reset h]

theorem step_of_inputs_request {s : State} {r : Request} {rest : List PortEvent} {i : Instr}
    (h : s.inputs = .request r :: rest) (hd : decode r = .ok i) : step s = exec i { s with inputs := rest } := by
  simp only [step, takeInput_request h, hd]

theorem sameRegisters_takeReset (s : State) : SameRegisters s.takeReset State.reset :=
  ⟨rfl, rfl, rfl, rfl, rfl, rfl, rfl, rfl, rfl, rfl⟩

/-- What is presented at the ports is none of the ten elements. -/
theorem sameRegisters_withInputs (s : State) (rest : List PortEvent) :
    SameRegisters { s with inputs := rest } s :=
  ⟨rfl, rfl, rfl, rfl, rfl, rfl, rfl, rfl, rfl, rfl⟩

theorem sameRegisters_trans {s t u : State} (h : SameRegisters s t) (h' : SameRegisters t u) : SameRegisters s u :=
  ⟨h.mode.trans h'.mode, h.cfgFs.trans h'.cfgFs, h.cfgP.trans h'.cfgP, h.nPw.trans h'.nPw, h.nData0.trans h'.nData0,
    h.nData1.trans h'.nData1, h.nDelim.trans h'.nDelim, h.nRtcal.trans h'.nRtcal, h.nTrcal8.trans h'.nTrcal8,
    h.nTrcal643.trans h'.nTrcal643⟩

/-- A second reset finds every element at its reset value (R231). -/
theorem takeReset_takeReset_withInputs (s : State) (rest : List PortEvent) :
    State.takeReset { s.takeReset with inputs := rest } = { s.takeReset with inputs := rest } := rfl

/-! ### What an instruction writes -/

/-- A command leaves all but the responses as it is, and gives one (R30, R163). -/
theorem exec_command_frame {i : Instr} {s t : State} (hi : isCommand i = true) (h : exec i s = .next t) :
    ∃ resp, t = { s with responses := s.responses ++ [resp] } := by
  rcases exec_cases h with ⟨-, -, rfl⟩ | ⟨-, -, -, rfl⟩ | ⟨-, -, w, rfl⟩ | ⟨-, rfl⟩ | ⟨R, P, rfl, -, -⟩ |
    ⟨R, P, rfl, -, -⟩
  · exact ⟨_, rfl⟩
  · exact ⟨_, rfl⟩
  · exact ⟨_, rfl⟩
  · exact ⟨_, rfl⟩
  · cases hi
  · cases hi

theorem exec_responses {i : Instr} {s t : State} (h : exec i s = .next t) :
    ∃ resp, t.responses = s.responses ++ [resp] := by
  rcases exec_cases h with ⟨-, -, rfl⟩ | ⟨-, -, -, rfl⟩ | ⟨-, -, w, rfl⟩ | ⟨-, rfl⟩ | ⟨R, P, -, -, rfl⟩ |
    ⟨R, P, -, -, rfl⟩ <;> exact ⟨_, rfl⟩

/-- CONFIGURE alone writes any of the ten elements (R28). -/
theorem exec_sameRegisters_or_configure {i : Instr} {s t : State} (h : exec i s = .next t) :
    SameRegisters t s ∨ ∃ R P : Word, i = .configure R P := by
  rcases exec_cases h with ⟨-, -, rfl⟩ | ⟨-, -, -, rfl⟩ | ⟨-, -, w, rfl⟩ | ⟨-, rfl⟩ | ⟨R, P, rfl, -, -⟩ |
    ⟨R, P, rfl, -, -⟩
  · exact .inl (SameRegisters.respond s _ _)
  · exact .inl (SameRegisters.respond s _ _)
  · exact .inl (SameRegisters.respond s _ _)
  · exact .inl (SameRegisters.respond s _ _)
  · exact .inr ⟨R, P, rfl⟩
  · exact .inr ⟨R, P, rfl⟩

theorem exec_command_sameRegisters {i : Instr} {s t : State} (hi : isCommand i = true) (h : exec i s = .next t) :
    SameRegisters t s := by
  obtain hsame | ⟨R, P, rfl⟩ := exec_sameRegisters_or_configure h
  · exact hsame
  · cases hi

theorem exec_configure_mode {R P : Word} {s t : State} (h : exec (.configure R P) s = .next t) :
    decide (t.mode = .ready) = configValid R.toInt P.toInt := by
  simp only [exec, execConfigure] at h
  split at h
  · rename_i hv
    cases h
    exact hv.symm
  · rename_i hv
    cases h
    exact (Bool.eq_false_iff.2 hv).symm

/-! ### What a step gives and takes -/

/-- A step gives one response if it takes a request record, and none else (R33, R37). -/
theorem step_responses {s t : State} (h : step s = .next t) :
    ∃ new, t.responses = s.responses ++ new ∧ new.length = requestCount (s.inputs.take 1) := by
  rcases step_cases h with ⟨hi, rfl⟩ | ⟨rest, hi, rfl⟩ | ⟨r, rest, i, hi, -, he⟩ | ⟨r, rest, hi, -, rfl⟩
  · exact ⟨[], by simp, by simp [hi, requestCount]⟩
  · exact ⟨[], by simp, by simp [hi, requestCount]⟩
  · obtain ⟨resp, hresp⟩ := exec_responses he
    exact ⟨[resp], hresp, by simp [hi, requestCount]⟩
  · exact ⟨[⟨.illegalRequest, []⟩], rfl, by simp [hi, requestCount]⟩

theorem sampleOutput_of_responses {s t : State} {new : List Response} (h : t.responses = s.responses ++ new) :
    t.sampleOutput = s.sampleOutput ++ new.flatMap Response.samples := by
  simp [State.sampleOutput, h]

/-- A request that is no CONFIGURE says nothing of the last CONFIGURE. -/
theorem lastConfigureSucceeded_request {r : Request} (h : ∀ R P, decode r ≠ .ok (.configure R P)) (before : Bool)
    (events : List PortEvent) :
    lastConfigureSucceeded before (.request r :: events) = lastConfigureSucceeded before events := by
  rw [lastConfigureSucceeded]
  split
  · rename_i R P hd
    exact absurd hd (h R P)
  · rfl

theorem lastConfigureSucceeded_configure {r : Request} {R P : Word} (h : decode r = .ok (.configure R P)) (before : Bool)
    (events : List PortEvent) : lastConfigureSucceeded before (.request r :: events) =
      lastConfigureSucceeded (configValid R.toInt P.toInt) events := by
  simp only [lastConfigureSucceeded, h]

theorem lastConfigureSucceeded_append (before : Bool) (xs ys : List PortEvent) :
    lastConfigureSucceeded before (xs ++ ys) = lastConfigureSucceeded (lastConfigureSucceeded before xs) ys := by
  induction xs generalizing before with
  | nil => rfl
  | cons e xs ih =>
    cases e with
    | reset => exact ih false
    | request r =>
      by_cases h : ∃ R P, decode r = .ok (.configure R P)
      · obtain ⟨R, P, hd⟩ := h
        rw [List.cons_append, lastConfigureSucceeded_configure hd, lastConfigureSucceeded_configure hd, ih]
      · have hd : ∀ R P, decode r ≠ .ok (.configure R P) := fun R P hd => h ⟨R, P, hd⟩
        rw [List.cons_append, lastConfigureSucceeded_request hd, lastConfigureSucceeded_request hd, ih]

theorem requestCount_append (xs ys : List PortEvent) :
    requestCount (xs ++ ys) = requestCount xs + requestCount ys := by
  induction xs with
  | nil => simp [requestCount]
  | cons e xs ih =>
    cases e with
    | reset => exact ih
    | request r =>
      simp only [List.cons_append, requestCount, ih]
      omega

/-- MODE after a step is what the taken event makes of it (R22). -/
theorem step_mode {s t : State} (h : step s = .next t) :
    decide (t.mode = .ready) = lastConfigureSucceeded (decide (s.mode = .ready)) (s.inputs.take 1) := by
  rcases step_cases h with ⟨hi, rfl⟩ | ⟨rest, hi, rfl⟩ | ⟨r, rest, i, hi, hd, he⟩ | ⟨r, rest, hi, hd, rfl⟩
  · rw [hi]
    rfl
  · rw [hi]
    rfl
  · simp only [hi, List.take_succ_cons, List.take_zero]
    by_cases hc : ∃ R P : Word, i = .configure R P
    · obtain ⟨R, P, rfl⟩ := hc
      rw [lastConfigureSucceeded_configure hd, exec_configure_mode he]
      rfl
    · have hmode : t.mode = s.mode := ((exec_sameRegisters_or_configure he).resolve_right hc).mode
      rw [lastConfigureSucceeded_request, hmode]
      · rfl
      · rintro R P hRP
        exact hc ⟨R, P, Except.ok.inj (hd.symm.trans hRP)⟩
  · simp only [hi, List.take_succ_cons, List.take_zero]
    rw [lastConfigureSucceeded_request]
    · rfl
    · simp [hd]

/-! ### Runs -/

/-- A run that completes is a step and a run that completes. -/
theorem run_succ_next {M : Host.Core} {k : Nat} {s t : M.State} (h : M.run (k + 1) s = .next t) :
    ∃ u, M.step s = .next u ∧ M.run k u = .next t := by
  simp only [Host.Core.run] at h
  split at h
  · exact ⟨_, ‹_›, h⟩
  · cases h
  · cases h

theorem take_succ_eq_take_one_append {α : Type} (k : Nat) (l : List α) :
    l.take (k + 1) = l.take 1 ++ l.tail.take k := by
  rw [Nat.add_comm, List.take_add, List.drop_one]

/-- A run takes its events from the front of what is presented (R34, R59). -/
theorem run_inputs {k : Nat} {s t : State} (h : Host.Core.run core k s = .next t) : t.inputs = s.inputs.drop k := by
  induction k generalizing s with
  | zero =>
    cases h
    rfl
  | succ k ih =>
    obtain ⟨u, hu, hrun⟩ := run_succ_next h
    rw [ih hrun, step_inputs hu, List.drop_tail]

/-- A run keeps the responses given before and gives one for each request record it takes (R33, R35). -/
theorem run_responses {k : Nat} {s t : State} (h : Host.Core.run core k s = .next t) :
    ∃ new, t.responses = s.responses ++ new ∧ new.length = requestCount (s.inputs.take k) := by
  induction k generalizing s with
  | zero =>
    cases h
    exact ⟨[], by simp, rfl⟩
  | succ k ih =>
    obtain ⟨u, hu, hrun⟩ := run_succ_next h
    obtain ⟨first, hfirst, hfirstLength⟩ := step_responses hu
    obtain ⟨later, hlater, hlaterLength⟩ := ih hrun
    refine ⟨first ++ later, by rw [hlater, hfirst, List.append_assoc], ?_⟩
    rw [take_succ_eq_take_one_append, requestCount_append, List.length_append, hfirstLength, hlaterLength,
      step_inputs hu]

theorem run_mode {k : Nat} {s t : State} (h : Host.Core.run core k s = .next t) :
    decide (t.mode = .ready) = lastConfigureSucceeded (decide (s.mode = .ready)) (s.inputs.take k) := by
  induction k generalizing s with
  | zero =>
    cases h
    rfl
  | succ k ih =>
    obtain ⟨u, hu, hrun⟩ := run_succ_next h
    rw [take_succ_eq_take_one_append, lastConfigureSucceeded_append, ← step_mode hu, ← step_inputs hu]
    exact ih hrun

/-! ### The obligations -/

/-- Settles O55: preservation, one half of the good states' invariant. -/
theorem registersAgreeIsKeptByEveryStep : Obligations.RegistersAgreeIsKeptByEveryStep :=
  fun _ _ hs h => step_keeps_registersAgree hs h

/-- Settles O58, by induction on the number of steps (`run_mode`). -/
theorem modeTellsWhetherTheLastConfigureSucceeded : Obligations.ModeTellsWhetherTheLastConfigureSucceeded := by
  intro k s t h
  rw [← run_mode h, decide_eq_true_iff]

/-- Settles O6: what each step appends, and by induction what a run does. -/
theorem responsesLeaveInRequestOrder : Obligations.ResponsesLeaveInRequestOrder := by
  refine ⟨fun s t h => ?_, fun k s t h => ?_⟩
  · obtain ⟨new, hnew, -⟩ := step_responses h
    exact ⟨_, sampleOutput_of_responses hnew⟩
  · obtain ⟨new, hnew, hlength⟩ := run_responses h
    exact ⟨new, hnew, hlength, run_inputs h⟩

/-- Settles O30. -/
theorem commandsWriteNoState : Obligations.CommandsWriteNoState :=
  fun _ _ _ hi h => exec_command_frame hi h

/-- Settles O57: of all that a step can do, only a reset pulse and a CONFIGURE write an element. -/
theorem onlyResetAndConfigureWriteTheRegisters : Obligations.OnlyResetAndConfigureWriteTheRegisters := by
  intro s t h hne
  rcases step_cases h with ⟨-, rfl⟩ | ⟨rest, hi, -⟩ | ⟨r, rest, i, hi, hd, he⟩ | ⟨r, rest, -, -, rfl⟩
  · exact absurd (SameRegisters.refl _) hne
  · exact ⟨rest, .inl hi⟩
  · rcases exec_sameRegisters_or_configure he with hsame | ⟨R, P, rfl⟩
    · exact absurd (sameRegisters_trans hsame (sameRegisters_withInputs s rest)) hne
    · exact ⟨rest, .inr ⟨r, R, P, hi, hd⟩⟩
  · exact absurd (sameRegisters_trans (SameRegisters.respond _ _ _) (sameRegisters_withInputs s rest)) hne

/-- Settles O2. -/
theorem resetPulseRestoresTheResetRegisters : Obligations.ResetPulseRestoresTheResetRegisters := by
  intro s rest h
  refine ⟨_, step_of_inputs_reset h, sameRegisters_takeReset _, rfl, rfl, ?_⟩
  intro rest' hrest
  rw [step_of_inputs_reset hrest, takeReset_takeReset_withInputs]

/-- Settles O3. -/
theorem stepPerformsTheDecodedRequest : Obligations.StepPerformsTheDecodedRequest :=
  fun _ _ _ _ h hd => step_of_inputs_request h hd

/-- Settles O4. -/
theorem stepRestsWithNothingPresented : Obligations.StepRestsWithNothingPresented :=
  fun _ h => step_of_inputs_nil h

/-- Settles O54: the reset state is what a reset pulse makes of itself, and nothing is presented in it. -/
theorem resetStateIsGood : Obligations.ResetStateIsGood :=
  ⟨State.registersAgree_takeReset State.reset, rfl⟩

end Sys2Proof.Machine
end

section
/-! No hidden state: what an instruction answers is read from the ten elements alone (spec/10_state.md R30). -/

namespace Sys2Proof.Machine

open Sys2Proof.Claims

/-- Whenever the first outcome, from `s₁`, is a next state, so is the second, from `s₂`: with the same one response and
the same ten elements (R30). -/
def SameAnswer (s₁ s₂ : State) (o₁ o₂ : Host.Outcome State Fault Refusal) : Prop :=
  ∀ t₁, o₁ = .next t₁ → ∃ t₂ resp, o₂ = .next t₂ ∧ t₁.responses = s₁.responses ++ [resp] ∧
    t₂.responses = s₂.responses ++ [resp] ∧ SameRegisters t₁ t₂

section
variable {s₁ s₂ : State} (h : SameRegisters s₁ s₂)
include h

/-! ### Reads and rendering -/

theorem readCount_congr (reg : CountReg) : readCount s₁ reg = readCount s₂ reg := by
  have hreg : s₁.countReg reg = s₂.countReg reg := by
    cases reg with
    | nPw => exact h.nPw
    | nData0 => exact h.nData0
    | nData1 => exact h.nData1
    | nDelim => exact h.nDelim
    | nRtcal => exact h.nRtcal
    | nTrcal8 => exact h.nTrcal8
    | nTrcal643 => exact h.nTrcal643
  simp only [readCount, hreg]

theorem readTemplate_congr (reg : CountReg) : readTemplate s₁ reg = readTemplate s₂ reg := by
  simp only [readTemplate, readCount_congr h]

theorem frameSync_congr : frameSync s₁ = frameSync s₂ := by
  simp only [frameSync, readDelimiter, readCount_congr h, readTemplate_congr h]

theorem preamble_congr (dr : DivideRatio) : preamble s₁ dr = preamble s₂ dr := by
  simp only [preamble, frameSync_congr h, readTemplate_congr h]

theorem encodeSymbols_congr (b : Bits) : encodeSymbols s₁ b = encodeSymbols s₂ b := by
  simp only [encodeSymbols, readTemplate_congr h]

/-! ### Answers -/

theorem sameRegisters_respond_congr (status : Status) (w : Samples) :
    SameRegisters (s₁.respond status w) (s₂.respond status w) :=
  ⟨h.mode, h.cfgFs, h.cfgP, h.nPw, h.nData0, h.nData1, h.nDelim, h.nRtcal, h.nTrcal8, h.nTrcal643⟩

theorem sameAnswer_respond (status : Status) (w : Samples) :
    SameAnswer s₁ s₂ (.next (s₁.respond status w)) (.next (s₂.respond status w)) := by
  rintro _ ⟨⟩
  exact ⟨_, ⟨status, w⟩, rfl, rfl, rfl, sameRegisters_respond_congr h status w⟩

theorem sameAnswer_whenReady {b₁ b₂ : Host.Outcome State Fault Refusal} (hb : SameAnswer s₁ s₂ b₁ b₂) :
    SameAnswer s₁ s₂ (whenReady s₁ b₁) (whenReady s₂ b₂) := by
  cases hm : s₁.mode with
  | unconfigured =>
    rw [whenReady_unconfigured hm, whenReady_unconfigured (h.mode.symm.trans hm)]
    exact sameAnswer_respond h _ _
  | ready => rwa [whenReady_ready hm, whenReady_ready (h.mode.symm.trans hm)]

theorem sameAnswer_emitFrame {f₁ f₂ : Except Fault Samples} (hf : f₁ = f₂) (frame : Bits) :
    SameAnswer s₁ s₂ (emitFrame s₁ f₁ frame) (emitFrame s₂ f₂ frame) := by
  simp only [emitFrame, hf, encodeSymbols_congr h]
  cases joinSegments f₂ (encodeSymbols s₂ frame) with
  | ok w => exact sameAnswer_respond h .ok w
  | error f => rintro _ ⟨⟩

theorem sameAnswer_configure (R P : Word) : SameAnswer s₁ s₂ (execConfigure R P s₁) (execConfigure R P s₂) := by
  unfold execConfigure
  split
  · rintro _ ⟨⟩
    exact ⟨_, ⟨.ok, []⟩, rfl, rfl, rfl, rfl, rfl, rfl, rfl, rfl, rfl, rfl, rfl, rfl, rfl⟩
  · rintro _ ⟨⟩
    exact ⟨_, ⟨.configInvalid, []⟩, rfl, rfl, rfl, rfl, rfl, h.cfgP, rfl, rfl, rfl, rfl, rfl, rfl, rfl⟩

theorem exec_sameAnswer (i : Instr) : SameAnswer s₁ s₂ (exec i s₁) (exec i s₂) := by
  have hsync (frame : Bits) := sameAnswer_emitFrame h (frameSync_congr h) frame
  cases i with
  | select target action memBank pointer length mask trunc =>
    refine sameAnswer_whenReady h ?_
    split
    · exact hsync _
    · exact sameAnswer_respond h _ _
  | query dr => exact sameAnswer_whenReady h (sameAnswer_emitFrame h (preamble_congr h dr) _)
  | queryrep => exact sameAnswer_whenReady h (hsync _)
  | queryadjust => exact sameAnswer_whenReady h (hsync _)
  | ack => exact sameAnswer_whenReady h (hsync _)
  | configure R P => exact sameAnswer_configure h R P
  | reserved6 => exact sameAnswer_respond h _ _
  | reserved7 => exact sameAnswer_respond h _ _

end

/-! ### The obligation -/

/-- Settles O31: two states with the same ten elements answer alike, and a command writes only its response. -/
theorem responseDependsOnRegistersAndRequestAlone : Obligations.ResponseDependsOnRegistersAndRequestAlone := by
  intro s₁ s₂ t₁ i hsame h
  obtain ⟨t₂, resp, ht₂, hr₁, hr₂, hregs⟩ := exec_sameAnswer hsame i t₁ h
  refine ⟨t₂, resp, ht₂, hr₁, hr₂, hregs, fun hi => exec_command_sameRegisters hi h⟩

end Sys2Proof.Machine
end

section
/-! The count registers of a good READY state hold the mathematical counts (spec/10_state.md R25, R26). -/

namespace Sys2Proof.Machine

open Sys2Proof.Claims

/-- A count below 2^45 is what its register holds. -/
theorem held_toCount {n : Int} (h0 : 0 ≤ n) (h : n < 2 ^ 45) :
    (held (some (toCount n)) : Int) = n ∧ held (some (toCount n)) < 2 ^ 45 := by
  have hheld : held (some (toCount n)) = n.toNat := toCount_toNat n h0 (by omega)
  omega

/-- Every count of positive words is below 2^45: the largest, RT-cal's, is at most `6 * 2^62 / 10^6`. -/
theorem symbolCount_bounds {k : Int} {R P : Word} (hk0 : 0 ≤ k) (hk : k ≤ 6) (hR : 0 ≤ R.toInt) (hP : 0 ≤ P.toInt) :
    0 ≤ symbolCount k R.toInt P.toInt ∧ symbolCount k R.toInt P.toInt < 2 ^ 45 := by
  rw [symbolCount_eq_floor k _ _ hk0 hR hP]
  have hRlt : R.toInt < 2 ^ 31 := BitVec.toInt_lt
  have hPlt : P.toInt < 2 ^ 31 := BitVec.toInt_lt
  have hprod : k * P.toInt * R.toInt ≤ 6 * 2 ^ 31 * 2 ^ 31 := by gcongr
  have hnonneg : 0 ≤ k * P.toInt * R.toInt := by positivity
  omega

/-- The counts that the sampling rate alone gives are below 2^45. -/
theorem rateCounts_bounds {R : Word} (hR : 0 ≤ R.toInt) :
    (0 ≤ delimCount R.toInt ∧ delimCount R.toInt < 2 ^ 45) ∧ (0 ≤ trcal8Count R.toInt ∧ trcal8Count R.toInt < 2 ^ 45) ∧
      (0 ≤ trcal643Count R.toInt ∧ trcal643Count R.toInt < 2 ^ 45) := by
  rw [delimCount_eq_floor _ hR, trcal8Count_eq_floor _ hR, trcal643Count_eq_floor _ hR]
  have hRlt : R.toInt < 2 ^ 31 := BitVec.toInt_lt
  omega

/-- Settles O20: the registers hold what CONFIGURE writes, and no count of a valid pair reaches 2^45. -/
theorem countRegistersHoldTheCountsWithoutOverflow : Obligations.CountRegistersHoldTheCountsWithoutOverflow := by
  intro s R hs hm hR
  obtain ⟨R', hR', hv, hconf⟩ := State.registersAgree_ready hs hm
  obtain rfl : R' = R := Option.some.inj (hR'.symm.trans hR)
  obtain ⟨hRpos, hPpos, -⟩ := (configValid_iff _ _).1 hv
  have hsymbol {k : Int} (hk0 : 0 ≤ k) (hk : k ≤ 6) :=
    symbolCount_bounds (R := R') (P := s.cfgP) hk0 hk (by omega) (by omega)
  obtain ⟨hdelim, htrcal8, htrcal643⟩ := rateCounts_bounds (R := R') (by omega)
  have hheld {n : Int} (hn : 0 ≤ n ∧ n < 2 ^ 45) := held_toCount hn.1 hn.2
  obtain ⟨h1, b1⟩ := hheld (hsymbol (k := 1) (by omega) (by omega))
  obtain ⟨h2, b2⟩ := hheld (hsymbol (k := 2) (by omega) (by omega))
  obtain ⟨h4, b4⟩ := hheld (hsymbol (k := 4) (by omega) (by omega))
  obtain ⟨h6, b6⟩ := hheld (hsymbol (k := 6) (by omega) (by omega))
  obtain ⟨hd, bd⟩ := hheld hdelim
  obtain ⟨ht8, bt8⟩ := hheld htrcal8
  obtain ⟨ht643, bt643⟩ := hheld htrcal643
  rw [← hconf]
  exact ⟨h1, h2, h4, hd, h6, ht8, ht643, b1, b2, b4, bd, b6, bt8, bt643⟩

end Sys2Proof.Machine
end

section
/-! What the port carries is what is performed: the record of a request decodes to that request (spec/30_encoding.md R70,
R71), so the command behind a CONFIGURE is performed in the profile just written; and a command leaves nothing behind that the
next one reads (spec/20_memory.md R59, R62). -/

namespace Sys2Proof.Machine

open Sys2Proof.Claims

/-! ### Presenting a request -/

/-- The decoder reads back the record of every request the port can carry. -/
theorem decode_encode {i : Instr} (h : i.wellFormed = true) : decode (encode i) = .ok i := by
  cases i with
  | select target action memBank pointer length mask trunc =>
    have hmask : maskFits mask.length = true := h
    simp [encode, decode, decodeSelect, hmask]
  | query => simp [encode, decode, decodeQuery]
  | queryrep => simp [encode, decode, decodeQueryrep]
  | queryadjust => simp [encode, decode, decodeQueryadjust]
  | ack => simp [encode, decode, decodeAck]
  | configure => simp [encode, decode, decodeConfigure]
  | reserved6 => rfl
  | reserved7 => rfl

/-- A presented request is performed, with it taken (R34). -/
theorem step_of_inputs_encode {s : State} {i : Instr} {rest : List PortEvent} (hi : i.wellFormed = true)
    (h : s.inputs = .request (encode i) :: rest) : step s = exec i { s with inputs := rest } :=
  step_of_inputs_request h (decode_encode hi)

theorem run_succ_of_step {M : Host.Core} {k : Nat} {s u : M.State} (h : M.step s = .next u) :
    M.run (k + 1) s = M.run k u := by
  simp only [Host.Core.run, h]

/-- A valid CONFIGURE, presented next, leads to a good READY state with its profile and answers OK (R34, R130). -/
theorem step_of_inputs_configure {s : State} {Rw Pw : Word} {rest : List PortEvent}
    (hv : configValid Rw.toInt Pw.toInt = true) (h : s.inputs = .request (encode (.configure Rw Pw)) :: rest) :
    ∃ u, step s = .next u ∧ u.registersAgree = true ∧ u.mode = .ready ∧ u.cfgFs = some Rw ∧ u.cfgP = Pw ∧
      u.inputs = rest ∧ u.responses = s.responses ++ [⟨.ok, []⟩] := by
  refine ⟨_, (step_of_inputs_encode rfl h).trans (if_pos hv), ?_, rfl, rfl, rfl, rfl, rfl⟩
  exact State.registersAgree_respond (State.registersAgree_configured _ Rw Pw hv) _ _

/-! ### What a command answers in a good READY state -/

/-- The answer of a command in a good READY state: its waveform, or the error of its own check (R160, R206). -/
def commandAnswer (s : State) (i : Instr) : Response :=
  if isAccepted i then ⟨.ok, framingOf s i ++ encodeOf s (frameOf i)⟩ else ⟨.maskLengthMismatch, []⟩

/-- Only a SELECT has a check of its own that can fail (R206). -/
theorem exec_of_not_isAccepted {s : State} (hm : s.mode = .ready) {i : Instr} (hc : isCommand i = true)
    (hi : isAccepted i = false) : exec i s = .next (s.respond .maskLengthMismatch []) := by
  cases i with
  | select target action memBank pointer length mask trunc =>
    rw [exec, execSelect, whenReady_ready hm, if_neg (of_decide_eq_false hi)]
    rfl
  | query => cases hi
  | queryrep => cases hi
  | queryadjust => cases hi
  | ack => cases hi
  | configure => cases hc
  | reserved6 => cases hc
  | reserved7 => cases hc

theorem exec_command_of_agree {s : State} (hs : s.registersAgree = true) (hm : s.mode = .ready) {i : Instr}
    (hc : isCommand i = true) : exec i s = .next { s with responses := s.responses ++ [commandAnswer s i] } := by
  cases hi : isAccepted i with
  | true =>
    rw [exec_of_isAccepted hs hm hi, commandAnswer, hi, if_pos rfl]
    rfl
  | false =>
    rw [exec_of_not_isAccepted hm hc hi, commandAnswer, hi, if_neg Bool.false_ne_true]
    rfl

/-- The answer is read from the ten elements alone, so what stands at the ports does not matter (R30). -/
theorem commandAnswer_withPorts (s : State) (events : List PortEvent) (given : List Response) (i : Instr) :
    commandAnswer { s with inputs := events, responses := given } i = commandAnswer s i := by
  have hframing : framingOf { s with inputs := events, responses := given } i = framingOf s i := by cases i <;> rfl
  rw [commandAnswer, hframing]
  rfl

/-- A command, presented next in a good READY state, is answered and writes nothing else (R34, R163). -/
theorem step_of_inputs_command {s : State} (hs : s.registersAgree = true) (hm : s.mode = .ready) {i : Instr}
    (hc : isCommand i = true) (hi : i.wellFormed = true) {rest : List PortEvent}
    (h : s.inputs = .request (encode i) :: rest) :
    step s = .next { s with inputs := rest, responses := s.responses ++ [commandAnswer s i] } := by
  rw [step_of_inputs_encode hi h, exec_command_of_agree (State.registersAgree_withInputs hs rest) hm hc,
    commandAnswer_withPorts]

/-! ### Two requests in a row -/

theorem sameRegisters_symm {s t : State} (h : SameRegisters s t) : SameRegisters t s :=
  ⟨h.mode.symm, h.cfgFs.symm, h.cfgP.symm, h.nPw.symm, h.nData0.symm, h.nData1.symm, h.nDelim.symm, h.nRtcal.symm,
    h.nTrcal8.symm, h.nTrcal643.symm⟩

/-- Settles O21: the first step leads to a good READY state with the new profile, in which the second performs the
command. -/
theorem configureIsSeenByTheNextCommand : Obligations.ConfigureIsSeenByTheNextCommand := by
  intro s Rw Pw i rest hv hc hw hinputs
  obtain ⟨u, hfirst, hs, hm, hcfgFs, hcfgP, hin, hresponses⟩ := step_of_inputs_configure hv hinputs
  have hsecond := step_of_inputs_command hs hm hc hw hin
  refine ⟨_, (run_succ_of_step hfirst).trans (run_succ_of_step hsecond), rfl, hcfgFs, hcfgP,
    step_keeps_registersAgree hs hsecond, ?_⟩
  change _ = s.responses ++ [⟨.ok, []⟩, commandAnswer _ i]
  rw [commandAnswer_withPorts u rest, hresponses, List.append_assoc, List.singleton_append]

/-- Settles O32: a command leaves the ten elements as they are, so the other answers alike before and after it. -/
theorem reorderingTwoCommandsReordersTheirResponsesOnly : Obligations.ReorderingTwoCommandsReordersTheirResponsesOnly := by
  intro s u t i j hi hj hu ht
  have hus := exec_command_sameRegisters hi hu
  obtain ⟨u', rj, hu', htj, hu'j, -⟩ := exec_sameAnswer hus j t ht
  have hu's := exec_command_sameRegisters hj hu'
  obtain ⟨t', ri, ht', hui, ht'i, -⟩ := exec_sameAnswer (sameRegisters_symm hu's) i u hu
  refine ⟨u', t', ri, rj, hu', ht', ?_, ?_, sameRegisters_trans (exec_command_sameRegisters hj ht) hus,
    sameRegisters_trans (exec_command_sameRegisters hi ht') hu's⟩
  · rw [htj, hui, List.append_assoc, List.singleton_append]
  · rw [ht'i, hu'j, List.append_assoc, List.singleton_append]

end Sys2Proof.Machine
end

section
/-! The bounds on a frame and on a response's samples (spec/20_memory.md R51). -/

namespace Sys2Proof.Machine

open Sys2Proof.Claims

/-! ### Frames -/

theorem length_selectFrame (g : SelectTarget) (a p l : Word) (b : MemBank) (m : Bits) (x : Bool) :
    (selectFrame g a b p l m x).length = 77 + m.length := by
  simp [selectFrame, selectBits]
  omega

/-- The longest frame is a SELECT's with a mask of MASK_MAX bits (R51, R71). -/
theorem length_frameOf_le {i : Instr} (h : i.wellFormed = true) : (frameOf i).length ≤ 77 + Config.maskMax := by
  cases i with
  | select target action memBank pointer length mask trunc =>
    have hmask : mask.length ≤ Config.maskMax := (maskFits_iff _).1 h
    rw [frameOf, length_selectFrame]
    omega
  | query => simp [frameOf, queryFrame, queryBits]; omega
  | queryrep => simp [frameOf, queryrepFrame]; omega
  | queryadjust => simp [frameOf, queryadjustFrame]; omega
  | ack => simp [frameOf, ackFrame]; omega
  | configure => exact Nat.zero_le _
  | reserved6 => exact Nat.zero_le _
  | reserved7 => exact Nat.zero_le _

/-! ### Waveforms -/

theorem length_pulseTrain {pw : Nat} {ns : List Nat} (h : ∀ n ∈ ns, pw ≤ n) : (pulseTrain pw ns).length = ns.sum := by
  rw [pulseTrain, List.length_flatMap, List.map_congr_left fun n hn => length_pulseTemplate pw n (h n hn), List.map_id']

/-- The samples of a command's waveform: the delimiter and all its segments (R161). -/
theorem length_waveform {s : State} (hs : s.registersAgree = true) (hm : s.mode = .ready) {i : Instr}
    (hc : isCommand i = true) : (framingOf s i ++ encodeOf s (frameOf i)).length =
      held s.nDelim + held s.nData0 + held s.nRtcal + (trcalLengths s i).sum +
        ((frameOf i).map (symbolLength s)).sum := by
  rw [waveform_eq_pulseTrain s hc, List.length_append, List.length_replicate,
    length_pulseTrain (nPw_le_of_mem_segmentLengths hs hm i)]
  simp only [segmentLengths, List.sum_cons, List.sum_append]
  omega

theorem sum_trcalLengths_le (s : State) (i : Instr) :
    (trcalLengths s i).sum ≤ max (held s.nTrcal8) (held s.nTrcal643) := by
  cases i with
  | query dr =>
    rw [trcalLengths, List.sum_singleton]
    cases dr with
    | dr8 => exact le_max_left _ _
    | dr643 => exact le_max_right _ _
  | _ => exact Nat.zero_le _

/-- Data-1 is the longer symbol (R135). -/
theorem symbolLength_le_nData1 {s : State} (hs : s.registersAgree = true) (hm : s.mode = .ready) (bit : Bool) :
    symbolLength s bit ≤ held s.nData1 := by
  obtain ⟨-, -, hdata, -⟩ := State.counts_ordered hs hm
  cases bit with
  | true => exact le_rfl
  | false => exact hdata.le

theorem sum_symbolLengths_le {s : State} (hs : s.registersAgree = true) (hm : s.mode = .ready) (b : Bits) :
    (b.map (symbolLength s)).sum ≤ b.length * held s.nData1 := by
  have hle := List.sum_le_card_nsmul (b.map (symbolLength s)) (held s.nData1)
    (List.forall_mem_map.2 fun bit _ => symbolLength_le_nData1 hs hm bit)
  simpa using hle

theorem length_waveform_le {s : State} (hs : s.registersAgree = true) (hm : s.mode = .ready) {i : Instr}
    (hc : isCommand i = true) (hi : i.wellFormed = true) :
    (framingOf s i ++ encodeOf s (frameOf i)).length ≤
      held s.nDelim + held s.nData0 + held s.nRtcal + max (held s.nTrcal8) (held s.nTrcal643) +
        (77 + Config.maskMax) * held s.nData1 := by
  have htrcal := sum_trcalLengths_le s i
  have hsymbols : ((frameOf i).map (symbolLength s)).sum ≤ (77 + Config.maskMax) * held s.nData1 :=
    (sum_symbolLengths_le hs hm _).trans (Nat.mul_le_mul_right _ (length_frameOf_le hi))
  rw [length_waveform hs hm hc]
  omega

/-- In a good READY state a response has no samples, or is an accepted command's waveform (R33, R160, R202). -/
theorem samples_of_response {s t : State} (hs : s.registersAgree = true) (hm : s.mode = .ready) {i : Instr}
    {resp : Response} (h : exec i s = .next t) (hr : t.responses = s.responses ++ [resp]) :
    resp.samples = [] ∨ isAccepted i = true ∧ resp.samples = framingOf s i ++ encodeOf s (frameOf i) := by
  have hnone {status : Status} (hstatus : t.responses = s.responses ++ [⟨status, []⟩]) : resp.samples = [] := by
    rw [List.singleton_inj.1 (List.append_cancel_left (hr.symm.trans hstatus))]
  rcases exec_cases h with ⟨-, -, rfl⟩ | ⟨-, -, -, rfl⟩ | ⟨hi, -, w, rfl⟩ | ⟨-, rfl⟩ | ⟨R, P, -, -, rfl⟩ |
    ⟨R, P, -, -, rfl⟩
  · exact .inl (hnone rfl)
  · exact .inl (hnone rfl)
  · have hresp : ⟨.ok, w⟩ = resp := List.singleton_inj.1 (List.append_cancel_left hr)
    exact .inr ⟨hi, hresp ▸ eq_waveform_of_response hs hm hi h rfl⟩
  · exact .inl (hnone rfl)
  · exact .inl (hnone rfl)
  · exact .inl (hnone rfl)

/-! ### The obligation -/

/-- Settles O29: a response without samples meets any bound, and a waveform has one symbol, of at most data-1's length,
for each frame bit. -/
theorem framesAndResponsesStayWithinTheirBounds : Obligations.FramesAndResponsesStayWithinTheirBounds := by
  intro s t i resp hs hm hi h hr
  refine ⟨length_frameOf_le hi, ?_⟩
  obtain hnone | ⟨hacc, hwave⟩ := samples_of_response hs hm h hr
  · rw [hnone]
    exact Nat.zero_le _
  · rw [hwave]
    exact length_waveform_le hs hm (isCommand_of_isAccepted hacc) hi

end Sys2Proof.Machine
end

section
/-! A record and the request it carries: the decoder reads back every record that the encoder writes, and a record of
kind 0 to 5 that it accepts is one the encoder writes (spec/30_encoding.md R70, R71, R73). -/

namespace Sys2Proof.Machine

open Sys2Proof.Claims

/-! ### The fields of a kind -/

/-- The field lists that R71 gives the kinds 0 to 5: each field is the bits of a value of its port type, and a SELECT's
mask is any bit sequence. -/
inductive PortFields : BitVec 3 → List Bits → Prop where
  | select (t : BitVec 3) (a : Word) (b : BitVec 2) (p l : Word) (m : Bits) (x : Bool) :
    PortFields 0 [wordBits t, wordBits a, wordBits b, wordBits p, wordBits l, m, [x]]
  | query (d : BitVec 1) (m : BitVec 2) (x : Bool) (e n : BitVec 2) (g : BitVec 1) (q : Word) :
    PortFields 1 [wordBits d, wordBits m, [x], wordBits e, wordBits n, wordBits g, wordBits q]
  | queryrep (n : BitVec 2) : PortFields 2 [wordBits n]
  | queryadjust (n : BitVec 2) (u : BitVec 3) : PortFields 3 [wordBits n, wordBits u]
  | ack (r : BitVec 16) : PortFields 4 [wordBits r]
  | configure (R P : Word) : PortFields 5 [wordBits R, wordBits P]

theorem PortFields.widths {kind : BitVec 3} {fields : List Bits} (h : PortFields kind fields) :
    ∃ maskLen, fields.map List.length = fieldWidths kind maskLen := by
  cases h with
  | select t a b p l m x => exact ⟨m.length, by simp [fieldWidths]⟩
  | _ => exact ⟨0, by simp [fieldWidths]⟩

/-! ### Each kind's decoder reads its fields or refuses them -/

theorem portFields_or_decodeSelect_error (fields : List Bits) :
    PortFields 0 fields ∨ decodeSelect fields = .error .fieldsNotOfKind := by
  unfold decodeSelect
  split
  · split
    · rename_i ht ha hb hp hl hx
      obtain rfl := wordBits_of_readField ht
      obtain rfl := wordBits_of_readField ha
      obtain rfl := wordBits_of_readField hb
      obtain rfl := wordBits_of_readField hp
      obtain rfl := wordBits_of_readField hl
      obtain rfl := eq_of_readFlag hx
      exact .inl (.select ..)
    · exact .inr rfl
  · exact .inr rfl

theorem portFields_or_decodeQuery_error (fields : List Bits) :
    PortFields 1 fields ∨ decodeQuery fields = .error .fieldsNotOfKind := by
  unfold decodeQuery
  split
  · split
    · rename_i hd hm hx he hn hg hq
      obtain rfl := wordBits_of_readField hd
      obtain rfl := wordBits_of_readField hm
      obtain rfl := eq_of_readFlag hx
      obtain rfl := wordBits_of_readField he
      obtain rfl := wordBits_of_readField hn
      obtain rfl := wordBits_of_readField hg
      obtain rfl := wordBits_of_readField hq
      exact .inl (.query ..)
    · exact .inr rfl
  · exact .inr rfl

theorem portFields_or_decodeQueryrep_error (fields : List Bits) :
    PortFields 2 fields ∨ decodeQueryrep fields = .error .fieldsNotOfKind := by
  unfold decodeQueryrep
  split
  · split
    · rename_i hn
      obtain rfl := wordBits_of_readField hn
      exact .inl (.queryrep _)
    · exact .inr rfl
  · exact .inr rfl

theorem portFields_or_decodeQueryadjust_error (fields : List Bits) :
    PortFields 3 fields ∨ decodeQueryadjust fields = .error .fieldsNotOfKind := by
  unfold decodeQueryadjust
  split
  · split
    · rename_i hn hu
      obtain rfl := wordBits_of_readField hn
      obtain rfl := wordBits_of_readField hu
      exact .inl (.queryadjust ..)
    · exact .inr rfl
  · exact .inr rfl

theorem portFields_or_decodeAck_error (fields : List Bits) :
    PortFields 4 fields ∨ decodeAck fields = .error .fieldsNotOfKind := by
  unfold decodeAck
  split
  · split
    · rename_i hr
      obtain rfl := wordBits_of_readField hr
      exact .inl (.ack _)
    · exact .inr rfl
  · exact .inr rfl

theorem portFields_or_decodeConfigure_error (fields : List Bits) :
    PortFields 5 fields ∨ decodeConfigure fields = .error .fieldsNotOfKind := by
  unfold decodeConfigure
  split
  · split
    · rename_i hR hP
      obtain rfl := wordBits_of_readField hR
      obtain rfl := wordBits_of_readField hP
      exact .inl (.configure ..)
    · exact .inr rfl
  · exact .inr rfl

/-- A record of kind 0 to 5 has the fields of its kind, or is refused (R71; log entry 3). -/
theorem portFields_or_decode_error {r : Request} (hk : r.reqKind.toNat < 6) :
    PortFields r.reqKind r.fields ∨ decode r = .error .fieldsNotOfKind := by
  obtain ⟨kind, fields⟩ := r
  have hkinds : ∀ k : BitVec 3, k.toNat < 6 → k = 0 ∨ k = 1 ∨ k = 2 ∨ k = 3 ∨ k = 4 ∨ k = 5 := by decide
  obtain rfl | rfl | rfl | rfl | rfl | rfl := hkinds kind hk
  · exact portFields_or_decodeSelect_error fields
  · exact portFields_or_decodeQuery_error fields
  · exact portFields_or_decodeQueryrep_error fields
  · exact portFields_or_decodeQueryadjust_error fields
  · exact portFields_or_decodeAck_error fields
  · exact portFields_or_decodeConfigure_error fields

/-! ### What a record with the fields of its kind decodes to -/

theorem decode_selectRecord (t : BitVec 3) (a : Word) (b : BitVec 2) (p l : Word) (m : Bits) (x : Bool) :
    decode ⟨0, [wordBits t, wordBits a, wordBits b, wordBits p, wordBits l, m, [x]]⟩ =
      if maskFits m.length then
        (selectTargetOf t).elim (.error .unnamedCode) fun g => .ok (.select g a (memBankOf b) p l m x)
      else .error .maskTooLong := by
  simp only [decode, decodeSelect, readField_wordBits, readFlag_singleton]
  cases selectTargetOf t <;> rfl

theorem decode_queryRecord (d : BitVec 1) (m : BitVec 2) (x : Bool) (e n : BitVec 2) (g : BitVec 1) (q : Word) :
    decode ⟨1, [wordBits d, wordBits m, [x], wordBits e, wordBits n, wordBits g, wordBits q]⟩ =
      (selOf e).elim (.error .unnamedCode) fun e =>
        .ok (.query (drOf d) (millerOf m) x e (sessionOf n) (invTargetOf g) q) := by
  simp only [decode, decodeQuery, readField_wordBits, readFlag_singleton]
  cases selOf e <;> rfl

theorem decode_queryadjustRecord (n : BitVec 2) (u : BitVec 3) :
    decode ⟨3, [wordBits n, wordBits u]⟩ =
      (updnOf u).elim (.error .unnamedCode) fun u => .ok (.queryadjust (sessionOf n) u) := by
  simp only [decode, decodeQueryadjust, readField_wordBits]
  cases updnOf u <;> rfl

/-- A record with the fields of its kind that decodes is the record of what it decodes to (R70, R71, R73). -/
theorem PortFields.encode_of_decode {kind : BitVec 3} {fields : List Bits} {i : Instr} (hf : PortFields kind fields)
    (h : decode ⟨kind, fields⟩ = .ok i) : encode i = ⟨kind, fields⟩ ∧ i.wellFormed = true := by
  cases hf with
  | select t a b p l m x =>
    rw [decode_selectRecord] at h
    split at h
    · rename_i hmask
      cases hg : selectTargetOf t with
      | none =>
        rw [hg] at h
        cases h
      | some g =>
        rw [hg] at h
        cases h
        exact ⟨by simp [encode, selectTargetCode_of hg], hmask⟩
    · cases h
  | query d m x e n g q =>
    rw [decode_queryRecord] at h
    cases he : selOf e with
    | none =>
      rw [he] at h
      cases h
    | some e' =>
      rw [he] at h
      cases h
      exact ⟨by simp [encode, selCode_of he], rfl⟩
  | queryrep n =>
    obtain rfl : .queryrep (sessionOf n) = i := by simpa [decode, decodeQueryrep] using h
    exact ⟨by simp [encode], rfl⟩
  | queryadjust n u =>
    rw [decode_queryadjustRecord] at h
    cases hu : updnOf u with
    | none =>
      rw [hu] at h
      cases h
    | some u' =>
      rw [hu] at h
      cases h
      exact ⟨by simp [encode, updnCode_of hu], rfl⟩
  | ack r =>
    obtain rfl : .ack r = i := by simpa [decode, decodeAck] using h
    exact ⟨rfl, rfl⟩
  | configure R P =>
    obtain rfl : .configure R P = i := by simpa [decode, decodeConfigure] using h
    exact ⟨rfl, rfl⟩

/-- A record that the decoder turns away is turned away by the step (R34). -/
theorem step_of_decode_error {s : State} {r : Request} {rest : List PortEvent} {e : DecodeError}
    (h : s.inputs = .request r :: rest) (hd : decode r = .error e) :
    step s = turnAway e { s with inputs := rest } := by
  simp only [step, takeInput_request h, hd]

/-! ### The obligations -/

/-- Settles O50: `decode_encode`, kind by kind. -/
theorem decodeInvertsEncode : Obligations.DecodeInvertsEncode :=
  fun _ => decode_encode

/-- Settles O51: a record that decodes has the fields of its kind, and each field writes back the bits it was read
from. -/
theorem decodedRecordsAreTheirEncodings : Obligations.DecodedRecordsAreTheirEncodings := by
  intro r i hk h
  obtain hf | hd := portFields_or_decode_error hk
  · exact hf.encode_of_decode h
  · rw [hd] at h
    cases h

/-- Settles O5: fields of other widths are not the fields of the kind, and a SELECT's mask is looked at before its
codes. -/
theorem stepRefusesRecordsThePortCannotCarry : Obligations.StepRefusesRecordsThePortCannotCarry := by
  constructor
  · intro s r rest h hk hwidths
    obtain hf | hd := portFields_or_decode_error hk
    · obtain ⟨maskLen, hlen⟩ := hf.widths
      exact absurd hlen (hwidths maskLen)
    · exact step_of_decode_error h hd
  · intro s rest t a p l b m x h hmask
    have hlong : ¬maskFits m.length = true := fun hfits => by
      have := (maskFits_iff _).1 hfits
      omega
    exact step_of_decode_error h ((decode_selectRecord t a b p l m x).trans (if_neg hlong))

/-- Settles O52: each record is the one the encoder writes for the request, so `decode_encode` gives the request. -/
theorem recordsOfTheVectorsDecode : Obligations.RecordsOfTheVectorsDecode :=
  ⟨decode_encode (i := .configure 1000000 12) rfl,
    decode_encode (i := .select .sl 4 .epc 32 8 [true, true, true, false, false, false, true, false] false) rfl,
    decode_encode (i := .query .dr8 .m1 false .all .s1 .a 4) rfl, decode_encode (i := .ack 0xABCD) rfl,
    decode_encode (i := .queryrep .s1) rfl, decode_encode (i := .queryadjust .s1 .increase) rfl⟩

/-- Settles O53: the four lines are read, character by character, in the kernel. -/
theorem writtenRequestsGiveTheirRecords : Obligations.WrittenRequestsGiveTheirRecords := by
  unfold Obligations.WrittenRequestsGiveTheirRecords
  decide +kernel

/-- Settles O8: both reserved kinds raise ILLEGAL_REQUEST, which is one response and no other write (R203, R204). -/
theorem reservedKindsAnswerIllegalRequest : Obligations.ReservedKindsAnswerIllegalRequest := by
  rintro s i (rfl | rfl)
  · rfl
  · rfl

end Sys2Proof.Machine
end

section
/-! Where the fields of a frame stand, and what its first bits tell (spec/30_encoding.md R74 to R76, R80 to R94). -/

namespace Sys2Proof.Machine

open Sys2Proof.Claims

/-! ### Truncated fields -/

theorem truncatedField_congr {w : Nat} (hw : w ≤ 32) {x y : Word} (h : x.toNat % 2 ^ w = y.toNat % 2 ^ w) :
    truncatedField w x = truncatedField w y := by
  rw [truncatedField_eq w hw, truncatedField_eq w hw, ← bitsOfNat_mod w x.toNat, h, bitsOfNat_mod]

/-- A Select frame carries the low three bits of `action` alone (R81). -/
theorem selectFrame_congr_action {a a' : Word} (h : a.toNat % 8 = a'.toNat % 8) (g : SelectTarget) (b : MemBank)
    (p l : Word) (m : Bits) (x : Bool) : selectFrame g a b p l m x = selectFrame g a' b p l m x := by
  have hfield : actionField a = actionField a' := truncatedField_congr (by omega) h
  simp only [selectFrame, selectBits, hfield]

/-- A Query frame carries the low four bits of `q` alone (R91). -/
theorem queryFrame_congr_q {q q' : Word} (h : q.toNat % 16 = q'.toNat % 16) (d : DivideRatio) (m : Miller) (x : Bool)
    (e : Sel) (n : Session) (g : InvTarget) : queryFrame d m x e n g q = queryFrame d m x e n g q' := by
  have hfield : qField q = qField q' := truncatedField_congr (by omega) h
  simp only [queryFrame, queryBits, hfield]

/-! ### A frame as the list of its fields -/

/-- Field `k` of a concatenation stands behind the fields before it. -/
theorem take_drop_flatten {fields : List Bits} {widths : List Nat} (h : fields.map List.length = widths) (k : Nat) :
    (fields.flatten.drop (widths.take k).sum).take (widths.getD k 0) = fields.getD k [] := by
  subst h
  induction fields generalizing k with
  | nil => simp
  | cons field fields ih =>
    cases k with
    | zero => simp
    | succ k => simpa [List.drop_length_add_append] using ih k

/-- What stands behind `n` command bits is the CRC of them (R111). -/
theorem drop_eq_crc_take {crc : Bits → Bits} {cmd : Bits} {n : Nat} (hn : cmd.length = n) :
    (cmd ++ crc cmd).drop n = crc ((cmd ++ crc cmd).take n) := by
  rw [List.drop_left' hn, List.take_left' hn]

/-- The fields of a Select frame, in order (R75). -/
def selectFrameFields (g : SelectTarget) (a : Word) (b : MemBank) (p l : Word) (m : Bits) (x : Bool) : List Bits :=
  [[true, false, true, false], wordBits (selectTargetCode g), actionField a, wordBits (memBankCode b), pointerField p,
    lengthField l, m, [x], crc16 (selectBits g a b p l m x)]

theorem selectFrame_eq_flatten (g : SelectTarget) (a : Word) (b : MemBank) (p l : Word) (m : Bits) (x : Bool) :
    selectFrame g a b p l m x = (selectFrameFields g a b p l m x).flatten := by
  have hheader : wordBits 0b1010#4 = [true, false, true, false] := rfl
  simp [selectFrame, selectFrameFields, selectBits, hheader]

theorem widths_selectFrameFields (g : SelectTarget) (a : Word) (b : MemBank) (p l : Word) (m : Bits) (x : Bool) :
    (selectFrameFields g a b p l m x).map List.length = [4, 3, 3, 2, 40, 8, m.length, 1, 16] := by
  simp [selectFrameFields]

/-- The fields of a Query frame, in order (R76). -/
def queryFrameFields (d : DivideRatio) (m : Miller) (x : Bool) (e : Sel) (n : Session) (g : InvTarget) (q : Word) :
    List Bits :=
  [[true, false, false, false], wordBits (drCode d), wordBits (millerCode m), [x], wordBits (selCode e),
    wordBits (sessionCode n), wordBits (invTargetCode g), qField q, crc5 (queryBits d m x e n g q)]

theorem queryFrame_eq_flatten (d : DivideRatio) (m : Miller) (x : Bool) (e : Sel) (n : Session) (g : InvTarget)
    (q : Word) : queryFrame d m x e n g q = (queryFrameFields d m x e n g q).flatten := by
  have hheader : wordBits 0b1000#4 = [true, false, false, false] := rfl
  simp [queryFrame, queryFrameFields, queryBits, hheader]

theorem widths_queryFrameFields (d : DivideRatio) (m : Miller) (x : Bool) (e : Sel) (n : Session) (g : InvTarget)
    (q : Word) : (queryFrameFields d m x e n g q).map List.length = [4, 1, 2, 1, 2, 2, 1, 4, 5] := by
  simp [queryFrameFields]

/-! ### Headers -/

/-- The headers of the five commands (R74). -/
def headers : List Bits :=
  [[true, false, true, false], [true, false, false, false], [false, false], [true, false, false, true], [false, true]]

theorem headerOf_mem_headers {i : Instr} (h : isCommand i = true) : headerOf i ∈ headers := by
  cases i with
  | configure => cases h
  | reserved6 => cases h
  | reserved7 => cases h
  | _ => simp [headerOf, headers]

/-- No header begins another (R74). -/
theorem headers_prefixFree : ∀ x ∈ headers, ∀ y ∈ headers, x <+: y → x = y := by decide

theorem headerOf_prefix_frameOf {i : Instr} (h : isCommand i = true) : headerOf i <+: frameOf i := by
  cases i with
  | select g a b p l m x =>
    rw [frameOf, selectFrame_eq_flatten]
    exact List.prefix_append _ _
  | query d m x e n g q =>
    rw [frameOf, queryFrame_eq_flatten]
    exact List.prefix_append _ _
  | queryrep n => exact List.prefix_append _ _
  | queryadjust n u =>
    rw [frameOf, queryadjustFrame, List.append_assoc]
    exact List.prefix_append _ _
  | ack r => exact List.prefix_append _ _
  | configure => cases h
  | reserved6 => cases h
  | reserved7 => cases h

/-- Bits that no header begins and that begin no header begin no frame. -/
theorem not_prefix_frameOf {bits : Bits} (hbits : ∀ x ∈ headers, ¬bits <+: x ∧ ¬x <+: bits) {i : Instr}
    (h : isCommand i = true) : ¬bits <+: frameOf i := by
  intro hframe
  obtain ⟨hbegins, hbegun⟩ := hbits _ (headerOf_mem_headers h)
  obtain hp | hp := List.prefix_or_prefix_of_prefix hframe (headerOf_prefix_frameOf h)
  · exact hbegins hp
  · exact hbegun hp

/-! ### The obligations -/

/-- Settles O39: the length of a frame tells its kind, and every field is read back from its place. -/
theorem frameDeterminesTheCommand : Obligations.FrameDeterminesTheCommand :=
  fun _ _ => frameOf_determines_canonical

/-- Settles O33: equal low bits give equal frames, and no check reads `action` or `q`. -/
theorem outOfRangeActionAndQActAsTheirLowBits : Obligations.OutOfRangeActionAndQActAsTheirLowBits := by
  constructor
  · intro s g a a' p l b m x h
    simp only [exec, execSelect, selectFrame_congr_action h]
  · intro s d m x e n g q q' h
    simp only [exec, execQuery, queryFrame_congr_q h]

/-- Settles O34: the tables, value by value. -/
theorem fieldCodesAreThoseOfTheTables : Obligations.FieldCodesAreThoseOfTheTables := by
  unfold Obligations.FieldCodesAreThoseOfTheTables
  decide

/-- Settles O35: each field stands behind those before it, whose widths add up to its place. -/
theorem selectFrameFieldsStandAtTheirPlaces : Obligations.SelectFrameFieldsStandAtTheirPlaces := by
  intro g a p l b m x f hf
  have hfield := take_drop_flatten (widths_selectFrameFields g a b p l m x)
  rw [← selectFrame_eq_flatten, ← hf] at hfield
  have hafterMask : ([4, 3, 3, 2, 40, 8, m.length, 1, 16].take 7).sum = 60 + m.length := by simp; omega
  have htrunc := hfield 7
  rw [hafterMask] at htrunc
  have hcrc : f.drop (61 + m.length) = crc16 (f.take (61 + m.length)) :=
    hf ▸ drop_eq_crc_take (by simp [selectBits]; omega)
  exact ⟨hfield 0, hfield 1, hfield 2, hfield 3, hfield 4, hfield 5, hfield 6, htrunc, hcrc⟩

/-- Settles O36: each field stands behind those before it, whose widths add up to its place. -/
theorem queryFrameFieldsStandAtTheirPlaces : Obligations.QueryFrameFieldsStandAtTheirPlaces := by
  intro d m x e n g q f hf
  have hfield := take_drop_flatten (widths_queryFrameFields d m x e n g q)
  rw [← queryFrame_eq_flatten, ← hf] at hfield
  have hcrc : f.drop 17 = crc5 (f.take 17) := hf ▸ drop_eq_crc_take (by simp [queryBits])
  exact ⟨hfield 0, hfield 1, hfield 2, hfield 3, hfield 4, hfield 5, hfield 6, hfield 7, hcrc⟩

/-- Settles O37: of two headers that begin one frame, one begins the other, and so they are the same. -/
theorem headersTellTheCommandApart : Obligations.HeadersTellTheCommandApart := by
  refine ⟨fun i => headerOf_prefix_frameOf, fun i j hi hj h => ?_⟩
  obtain hp | hp := List.prefix_or_prefix_of_prefix h (headerOf_prefix_frameOf hj)
  · exact headers_prefixFree _ (headerOf_mem_headers hi) _ (headerOf_mem_headers hj) hp
  · exact (headers_prefixFree _ (headerOf_mem_headers hj) _ (headerOf_mem_headers hi) hp).symm

/-- Settles O38: the two bit strings clash with every header, and each coded field holds a code of its table. -/
theorem unnamedCodesAreNeverEmitted : Obligations.UnnamedCodesAreNeverEmitted := by
  refine ⟨fun i hi => ⟨not_prefix_frameOf (by decide) hi, not_prefix_frameOf (by decide) hi⟩, ?_, ?_, ?_⟩
  · intro g a b p l m x
    obtain ⟨-, htarget, -⟩ := selectFrameFieldsStandAtTheirPlaces g a p l b m x _ rfl
    rw [htarget]
    cases g <;> decide
  · intro d m x e n g q
    obtain ⟨-, -, -, -, hsel, -⟩ := queryFrameFieldsStandAtTheirPlaces d m x e n g q _ rfl
    rw [hsel]
    cases e <;> decide
  · intro n u
    have hupdn : (queryadjustFrame n u).drop 6 = wordBits (updnCode u) := List.drop_left' (by simp)
    rw [hupdn]
    cases u <;> decide

/-- Settles O43: three bits of padding fill the first block, and each further block takes the next seven bits. -/
theorem pointerFieldIsFiveBlocks : Obligations.PointerFieldIsFiveBlocks := by
  rintro pointer p rfl
  have hlast : ((bitsW 32 pointer.toInt).drop 25).take 7 = (bitsW 32 pointer.toInt).drop 25 :=
    List.take_of_length_le (by simp)
  have hblocks : pointerField pointer = ebvBlocks 5 (List.replicate 3 false ++ bitsW 32 pointer.toInt) := by
    simp [pointerField, ebvEncode, ebvBlockCount, truncatedField]
  rw [hblocks]
  simp [ebvBlocks, List.replicate_succ, hlast]

end Sys2Proof.Machine
end

section
/-! The EBV packer and its inverse (spec/40_ebv.md R100 to R102): the field is one block of 8 bits for each 7 bits of the
left-padded input, and the first block whose extension bit is 0 is the last one. -/

namespace Sys2Proof.Machine

/-! ### The padded input -/

/-- The input of the EBV packer left-padded with zeros to whole blocks (R100). -/
def ebvPadded (b : Bits) : Bits :=
  List.replicate (7 * ebvBlockCount b.length - b.length) false ++ b

theorem ebvBlockCount_pos (len : Nat) : 0 < ebvBlockCount len := by
  unfold ebvBlockCount
  omega

theorem le_seven_mul_ebvBlockCount (len : Nat) : len ≤ 7 * ebvBlockCount len := by
  unfold ebvBlockCount
  omega

@[simp] theorem length_ebvPadded (b : Bits) : (ebvPadded b).length = 7 * ebvBlockCount b.length := by
  rw [ebvPadded, List.length_append, List.length_replicate, Nat.sub_add_cancel (le_seven_mul_ebvBlockCount _)]

/-- Dropping the padding leaves the input (R102). -/
theorem drop_ebvPadded (b : Bits) : (ebvPadded b).drop ((ebvPadded b).length - b.length) = b := by
  rw [length_ebvPadded]
  exact List.drop_left' (by simp)

theorem ebvEncode_eq_ebvBlocks (b : Bits) : ebvEncode b = ebvBlocks (ebvBlockCount b.length) (ebvPadded b) := rfl

theorem length_ebvEncode (b : Bits) : (ebvEncode b).length = 8 * ebvBlockCount b.length := by
  rw [ebvEncode_eq_ebvBlocks, length_ebvBlocks _ _ (length_ebvPadded b)]

/-! ### The blocks -/

/-- Block `i` is its extension bit and the bits `7 i` to `7 i + 6` of what is packed (R100, R102). -/
theorem ebvBlocks_block {k i : Nat} {p : Bits} (hi : i < k) (hp : p.length = 7 * k) :
    ((ebvBlocks k p).drop (8 * i)).take 8 = decide (i + 1 < k) :: (p.drop (7 * i)).take 7 := by
  induction k generalizing i p with
  | zero => omega
  | succ k ih =>
    have hpayload : (p.take 7).length = 7 := by simp; omega
    cases i with
    | zero => simp [ebvBlocks, List.take_left' hpayload]
    | succ i =>
      have hrest : (ebvBlocks (k + 1) p).drop (8 * (i + 1)) = (ebvBlocks k (p.drop 7)).drop (8 * i) := by
        rw [show 8 * (i + 1) = 7 + 8 * i + 1 by omega, ebvBlocks, List.drop_succ_cons, ← List.drop_drop,
          List.drop_left' hpayload]
      rw [hrest, ih (by omega) (by simp; omega), List.drop_drop, show 7 + 7 * i = 7 * (i + 1) by omega]
      simp

/-! ### The inverse -/

/-- A block with extension bit 0 ends the field (R102). -/
theorem ebvPayload_lastBlock {d : Bits} (hd : d.length = 7) (fuel : Nat) (rest : Bits) :
    ebvPayload (fuel + 1) (false :: (d ++ rest)) = some d := by
  simp [ebvPayload, hd, List.take_left' hd]

/-- A block with extension bit 1 puts its payload in front of what the later blocks hold (R102). -/
theorem ebvPayload_furtherBlock {d rest more : Bits} {fuel : Nat} (hd : d.length = 7)
    (hmore : ebvPayload fuel rest = some more) :
    ebvPayload (fuel + 1) (true :: (d ++ rest)) = some (d ++ more) := by
  simp [ebvPayload, hd, List.take_left' hd, List.drop_left' hd, hmore]

/-- The payloads of `k` blocks are what was packed, whatever bits follow the blocks. -/
theorem ebvPayload_ebvBlocks {k fuel : Nat} {p : Bits} (hk : 0 < k) (hfuel : k ≤ fuel) (hp : p.length = 7 * k)
    (rest : Bits) : ebvPayload fuel (ebvBlocks k p ++ rest) = some p := by
  induction k generalizing fuel p with
  | zero => omega
  | succ k ih =>
    obtain ⟨fuel, rfl⟩ : ∃ n, fuel = n + 1 := ⟨fuel - 1, by omega⟩
    rw [ebvBlocks, List.cons_append, List.append_assoc]
    obtain rfl | hlater := Nat.eq_zero_or_pos k
    · have htake : p.take 7 = p := List.take_of_length_le (by omega)
      rw [htake]
      exact ebvPayload_lastBlock (by omega) fuel _
    · have hmore := ih hlater (by omega) (p := p.drop 7) (fuel := fuel) (by simp; omega)
      rw [decide_eq_true hlater, ebvPayload_furtherBlock (by simp; omega) hmore, List.take_append_drop]

theorem ebvPayload_ebvEncode (b rest : Bits) :
    ebvPayload (ebvEncode b ++ rest).length (ebvEncode b ++ rest) = some (ebvPadded b) := by
  have hfuel : ebvBlockCount b.length ≤ (ebvEncode b ++ rest).length := by
    rw [List.length_append, length_ebvEncode]
    omega
  rw [ebvEncode_eq_ebvBlocks] at hfuel ⊢
  exact ebvPayload_ebvBlocks (ebvBlockCount_pos _) hfuel (length_ebvPadded b) rest

/-! ### The obligations -/

/-- Settles O40: the packer writes 8 bits for each of its blocks. -/
theorem ebvFieldsAreWholeBlocks : Obligations.EbvFieldsAreWholeBlocks :=
  length_ebvEncode

/-- Settles O41: the padded input is whole blocks, and each block of the field is read at its place. -/
theorem ebvBlocksCarryExtensionBitAndPayload : Obligations.EbvBlocksCarryExtensionBitAndPayload := by
  rintro b k i rfl hi
  refine ⟨length_ebvEncode b, ?_⟩
  rw [ebvEncode_eq_ebvBlocks]
  exact ebvBlocks_block hi (length_ebvPadded b)

/-- Settles O42: the payloads read back are the padded input, and its padding is dropped. -/
theorem ebvDecodingRecoversTheInput : Obligations.EbvDecodingRecoversTheInput := by
  intro b rest
  rw [ebvDecode, ebvPayload_ebvEncode]
  exact congrArg some (drop_ebvPadded b)

end Sys2Proof.Machine
end

section
/-! The CRC unit (spec/41_crc.md R112 to R116). Both registers are one shift register, linear over xor. Fed with its own
content, most significant bit first, it never sees a feedback bit and shifts that content out; fed with its content xor a
mask, it ends as the zero register ends after the mask alone. The residues are the cases mask zero and mask all ones. -/

namespace Sys2Proof.Machine

/-! ### The shift register of both CRCs -/

/-- One bit into a CRC register of `w` bits with feedback polynomial `p`. -/
def crcStep {w : Nat} (p c : BitVec w) (b : Bool) : BitVec w :=
  if (c.getLsbD (w - 1) ^^ b) then (c <<< 1) ^^^ p else c <<< 1

theorem crc5Step_eq_crcStep : crc5Step = crcStep 0b01001#5 := rfl

theorem crc16Step_eq_crcStep : crc16Step = crcStep 0x1021#16 := rfl

/-- A step is linear: a register fed with its top bit shifts, and what is xored on top of it steps by itself. -/
theorem crcStep_xor {w : Nat} (p c d : BitVec w) (b : Bool) :
    crcStep p (c ^^^ d) (c.getLsbD (w - 1) ^^ b) = (c <<< 1) ^^^ crcStep p d b := by
  have hfeedback : ((c ^^^ d).getLsbD (w - 1) ^^ (c.getLsbD (w - 1) ^^ b)) = (d.getLsbD (w - 1) ^^ b) := by
    rw [BitVec.getLsbD_xor]
    cases c.getLsbD (w - 1) <;> simp
  unfold crcStep
  rw [hfeedback, BitVec.shiftLeft_xor_distrib]
  split
  · exact BitVec.xor_assoc ..
  · rfl

/-- With the `n` low bits of `c` still in the register's upper end, the `n` low bits of `c` xor `m` shift `c` out and
leave what the bits of `m` alone make of the rest. -/
theorem foldl_crcStep_lowBits_xor {w n : Nat} (hn : n ≤ w) (p c m d : BitVec w) :
    (bitsOfNat n (c ^^^ m).toNat).foldl (crcStep p) ((c <<< (w - n)) ^^^ d) =
      (bitsOfNat n m.toNat).foldl (crcStep p) d := by
  induction n generalizing d with
  | zero => simp [bitsOfNat]
  | succ n ih =>
    have hbit : (c ^^^ m).toNat.testBit n = ((c <<< (w - (n + 1))).getLsbD (w - 1) ^^ m.toNat.testBit n) := by
      have hplace : w - 1 - (w - (n + 1)) = n := by omega
      have hinside : w - 1 < w ∧ ¬ w - 1 < w - (n + 1) := by omega
      simp [-BitVec.getLsbD_eq_getElem, hplace, hinside, BitVec.testBit_toNat]
    have hshift : c <<< (w - (n + 1)) <<< 1 = c <<< (w - n) := by
      rw [← BitVec.shiftLeft_add]
      congr 1
      omega
    rw [bitsOfNat, bitsOfNat, List.foldl_cons, List.foldl_cons, hbit, crcStep_xor, hshift]
    exact ih (by omega) _

/-- A register fed with its own word under the mask `m` ends as the zero register does after the mask. -/
theorem foldl_crcStep_wordBits_xor {w : Nat} (p c m : BitVec w) :
    (wordBits (c ^^^ m)).foldl (crcStep p) c = (wordBits m).foldl (crcStep p) 0#w := by
  simpa [wordBits] using foldl_crcStep_lowBits_xor le_rfl p c m 0#w

/-! ### The residues (R115) -/

theorem crc5Register_append_crc5 (b : Bits) : crc5Register (b ++ crc5 b) = 0b00000#5 := by
  have hmask := foldl_crcStep_wordBits_xor 0b01001#5 (crc5Register b) 0#5
  rw [BitVec.xor_zero] at hmask
  calc crc5Register (b ++ crc5 b)
    _ = (crc5 b).foldl crc5Step (crc5Register b) := List.foldl_append
    _ = (wordBits 0#5).foldl (crcStep 0b01001#5) 0#5 := hmask
    _ = 0b00000#5 := by decide

theorem crc16Register_append_crc16 (b : Bits) : crc16Register (b ++ crc16 b) = 0x1D0F#16 :=
  calc crc16Register (b ++ crc16 b)
    _ = (crc16 b).foldl crc16Step (crc16Register b) := List.foldl_append
    _ = (wordBits 0xFFFF#16).foldl (crcStep 0x1021#16) 0#16 := foldl_crcStep_wordBits_xor _ _ _
    _ = 0x1D0F#16 := by decide +kernel

/-! ### The obligations -/

/-- Settles O44: behind any bits, the CRC shifts the register out and leaves the residue of its final mask. -/
theorem crcRegistersLeaveTheirResidues : Obligations.CrcRegistersLeaveTheirResidues :=
  fun b => ⟨crc5Register_append_crc5 b, crc16Register_append_crc16 b⟩

/-- Settles O45: both registers run over the 72 fixed bits, in the kernel. -/
theorem crcCheckValues : Obligations.CrcCheckValues := by
  unfold Obligations.CrcCheckValues
  decide +kernel

end Sys2Proof.Machine
end

section
/-! CONFIGURE and the arithmetic of the timing profile: which pairs it accepts, what it writes, and how the truncated
counts lie to each other (spec/42_pie.md R130 to R135, R142). -/

namespace Sys2Proof.Machine

/-! ### CONFIGURE by the validity of its pair -/

theorem exec_configure_of_valid {R P : Word} (h : configValid R.toInt P.toInt = true) (s : State) :
    exec (.configure R P) s = .next ((s.configured R P).respond .ok []) :=
  if_pos h

theorem exec_configure_of_invalid {R P : Word} (h : ¬configValid R.toInt P.toInt = true) (s : State) :
    exec (.configure R P) s = .next (s.unconfigured.raise .configInvalid) :=
  if_neg h

/-! ### Truncation -/

/-- A symbol count is the exact rational truncated (R131), with the product `P * R` as one term: all that the relations
between the counts rest on. -/
theorem symbolCount_truncated {k R P : Int} (hk : 0 ≤ k) (hR : 1 ≤ R) (hP : 1 ≤ P) :
    1000000 * symbolCount k R P ≤ k * (P * R) ∧ k * (P * R) < 1000000 * (symbolCount k R P + 1) := by
  rw [symbolCount_eq_floor k R P hk (by omega) (by omega), mul_assoc]
  omega

/-- The four symbol counts between their bounds, in `P * R`. -/
theorem symbolCounts_truncated {R P : Int} (hR : 1 ≤ R) (hP : 1 ≤ P) :
    (1000000 * pulseCount R P ≤ P * R ∧ P * R < 1000000 * (pulseCount R P + 1)) ∧
    (1000000 * data0Count R P ≤ 2 * (P * R) ∧ 2 * (P * R) < 1000000 * (data0Count R P + 1)) ∧
    (1000000 * data1Count R P ≤ 4 * (P * R) ∧ 4 * (P * R) < 1000000 * (data1Count R P + 1)) ∧
    (1000000 * rtcalCount R P ≤ 6 * (P * R) ∧ 6 * (P * R) < 1000000 * (rtcalCount R P + 1)) := by
  have h (k : Int) (hk : 0 ≤ k) := symbolCount_truncated (k := k) hk hR hP
  have h1 := h 1 (by omega)
  rw [one_mul] at h1
  exact ⟨h1, h 2 (by omega), h 4 (by omega), h 6 (by omega)⟩

/-! ### The obligations -/

/-- Settles O15: `configValid` is the five inequalities, and the floors are the counts of the profile. -/
theorem configureWritesTheProfileOrDiscardsIt : Obligations.ConfigureWritesTheProfileOrDiscardsIt := by
  rintro s Rw Pw R P rfl rfl
  rw [← configValid_iff]
  refine ⟨fun hvalid => ?_, exec_configure_of_invalid (s := s)⟩
  have hR : 0 ≤ Rw.toInt := by have := ((configValid_iff _ _).1 hvalid).1; omega
  have hP : 0 ≤ Pw.toInt := by have := ((configValid_iff _ _).1 hvalid).2.1; omega
  rw [exec_configure_of_valid hvalid, ← pulseCount_eq_floor _ _ hR hP, ← data0Count_eq_floor _ _ hR hP,
    ← data1Count_eq_floor _ _ hR hP, ← delimCount_eq_floor _ hR, ← rtcalCount_eq_floor _ _ hR hP,
    ← trcal8Count_eq_floor _ hR, ← trcal643Count_eq_floor _ hR]
  rfl

/-- Settles O16: for positive pairs truncation is the floor. -/
theorem countsAreTheExactValuesTruncated : Obligations.CountsAreTheExactValuesTruncated := by
  intro R P hR hP
  obtain ⟨hpw, hdata0, hdata1, hrtcal⟩ := symbolCounts_truncated hR hP
  have hR0 : 0 ≤ R := by omega
  rw [delimCount_eq_floor R hR0, trcal8Count_eq_floor R hR0, trcal643Count_eq_floor R hR0]
  simp only [mul_assoc]
  exact ⟨hpw, hdata0, hdata1, hrtcal, by omega, by omega, by omega⟩

/-- Settles O17: `P * R >= 10^6` puts at least one sample between the symbol counts, and two floors lose at most one. -/
theorem validCountsAreOrdered : Obligations.ValidCountsAreOrdered := by
  intro R P hvalid
  obtain ⟨hR, hP, hPR, -, htrcal⟩ := (configValid_iff R P).1 hvalid
  have hR0 : 0 ≤ R := by omega
  obtain ⟨hpw, hdata0, hdata1, hrtcal⟩ := symbolCounts_truncated hR hP
  rw [← pulseCount_eq_floor R P hR0 (by omega)] at htrcal
  rw [trcal8Count_eq_floor R hR0, trcal643Count_eq_floor R hR0]
  exact ⟨by omega, by omega, by omega, by omega, htrcal, by omega, by omega⟩

/-- Settles O18: each relation says that the doubled fraction stays below one. -/
theorem twiceRelationsHoldExactlyWhenTheFractionIsSmall :
    Obligations.TwiceRelationsHoldExactlyWhenTheFractionIsSmall := by
  refine ⟨fun R P hR hP => ?_, by decide +kernel, by decide +kernel⟩
  obtain ⟨hpw, hdata0, hdata1, hrtcal⟩ := symbolCounts_truncated hR hP
  rw [mul_assoc]
  exact ⟨by omega, by omega, fun hdvd => by omega, fun hdvd => by omega⟩

/-- Refutes O19: `R = 100,000`, `P = 15` is a valid pair with `P * R = 3 * 500,000`, but `n_data0 = 3` and `n_pw = 1`. -/
theorem not_bothTwiceRelationsHoldAtMultiplesOf500000 : ¬Obligations.BothTwiceRelationsHoldAtMultiplesOf500000 := by
  intro h
  have htwice : data0Count 100000 15 = 2 * pulseCount 100000 15 := (h 100000 15 (by decide +kernel) (by decide)).2
  exact absurd htwice (by decide +kernel)

end Sys2Proof.Machine
end

section
/-! Where waveforms fall: a template has one falling edge, at the end of its high part, so framing and symbols fall one
segment length apart (spec/42_pie.md R136, R139 to R141, R143, R144). -/

namespace Sys2Proof.Machine

open Sys2Proof.Claims

/-! ### Falling edges of levels and templates -/

/-- Samples at the level before them have no falling edge. -/
theorem fallingEdges_replicate_append (start k : Nat) (level : Bool) (x : Samples) :
    fallingEdges start level (List.replicate k level ++ x) = fallingEdges (start + k) level x := by
  induction k generalizing start with
  | zero => rfl
  | succ k ih => simp [List.replicate_succ, fallingEdges, ih, Nat.add_assoc, Nat.add_comm 1 k]

/-- A template after a low level falls exactly once, at the end of its high part, and ends low (R136). -/
theorem fallingEdges_pulseTemplate_append {pw n : Nat} (hpw : 1 ≤ pw) (hn : pw < n) (start : Nat) (x : Samples) :
    fallingEdges start false (pulseTemplate pw n ++ x) = (start + n - pw) :: fallingEdges (start + n) false x := by
  obtain ⟨low, rfl⟩ := Nat.exists_eq_add_of_le' hpw
  obtain ⟨high, rfl⟩ := Nat.exists_eq_add_of_lt hn
  calc fallingEdges start false (pulseTemplate (low + 1) (low + 1 + high + 1) ++ x)
      = fallingEdges start false (true :: (List.replicate high true ++ false :: (List.replicate low false ++ x))) := by
        simp [pulseTemplate, show low + 1 + high + 1 - (low + 1) = high + 1 by omega, List.replicate_succ]
    _ = fallingEdges (start + 1 + high) true (false :: (List.replicate low false ++ x)) :=
        fallingEdges_replicate_append (start + 1) high true _
    _ = (start + 1 + high) :: fallingEdges (start + 1 + high + 1 + low) false x :=
        congrArg (List.cons _) (fallingEdges_replicate_append _ low false x)
    _ = _ := by congr 2 <;> omega

/-- In a good READY state both symbols are longer than the low pulse they end in (R135). -/
theorem nPw_lt_symbolLength {s : State} (hs : s.registersAgree = true) (hm : s.mode = .ready) (bit : Bool) :
    held s.nPw < symbolLength s bit := by
  obtain ⟨-, hdata0, hdata1, -⟩ := State.counts_ordered hs hm
  cases bit
  · exact hdata0
  · exact hdata0.trans hdata1

/-- Symbols that start anywhere after a low level fall one symbol length apart (R143). -/
theorem fallingEdges_encodeOf {s : State} (hs : s.registersAgree = true) (hm : s.mode = .ready) (start : Nat) (b : Bits) :
    fallingEdges start false (encodeOf s b) = symbolEdges (held s.nPw) (held s.nData0) (held s.nData1) start b := by
  have hpw := (State.counts_ordered hs hm).1
  induction b generalizing start with
  | nil => rfl
  | cons bit b ih =>
    have hfront : encodeOf s (bit :: b) = pulseTemplate (held s.nPw) (symbolLength s bit) ++ encodeOf s b := by
      simp [encodeOf_eq_pulseTrain, pulseTrain]
    rw [hfront, fallingEdges_pulseTemplate_append hpw (nPw_lt_symbolLength hs hm bit), ih]
    rfl

/-! ### The obligations -/

/-- Settles O46: the delimiter is low, and each of the three templates behind it falls once. -/
theorem framingFallsAtTheEndOfEachHighPart : Obligations.FramingFallsAtTheEndOfEachHighPart := by
  intro s d hs hm
  refine ⟨frameSync_of_agree hs hm, preamble_of_agree hs hm d, ?_⟩
  obtain ⟨hpw, hdata0, hdata1, hrtcal, htrcal8, htrcal643⟩ := State.counts_ordered hs hm
  have htrcal : held s.nPw < held (trcalOf s d) := by cases d <;> simp only [trcalOf] <;> omega
  have hsegments : preambleOf s d = List.replicate (held s.nDelim) false ++ (pulseTemplate (held s.nPw) (held s.nData0) ++
      (pulseTemplate (held s.nPw) (held s.nRtcal) ++ (pulseTemplate (held s.nPw) (held (trcalOf s d)) ++ []))) := by
    simp [preambleOf, frameSyncOf, templateOf, pulseTemplate]
  rw [hsegments, fallingEdges_replicate_append, fallingEdges_pulseTemplate_append hpw hdata0,
    fallingEdges_pulseTemplate_append hpw (by omega), fallingEdges_pulseTemplate_append hpw htrcal, Nat.zero_add]
  rfl

/-- Settles O47: each symbol is a template longer than its low pulse, so it falls once, at the end of its high part. -/
theorem symbolsFallOneSymbolLengthApart : Obligations.SymbolsFallOneSymbolLengthApart :=
  fun _ b hs hm => ⟨encodeSymbols_of_agree hs hm b, fallingEdges_encodeOf hs hm 0 b⟩

/-- Settles O48: the symbol lengths are read off the train of templates, and the two symbols differ in length. -/
theorem symbolsDetermineTheBits : Obligations.SymbolsDetermineTheBits := by
  intro s b b' hs hm h
  have hpw := (State.counts_ordered hs hm).1
  have hlong (c : Bits) : ∀ n ∈ c.map (symbolLength s), held s.nPw ≤ n :=
    List.forall_mem_map.2 fun bit _ => (nPw_lt_symbolLength hs hm bit).le
  rw [encodeOf_eq_pulseTrain, encodeOf_eq_pulseTrain] at h
  exact List.map_injective_iff.2 (symbolLength_injective hs hm) (pulseTrain_inj hpw (hlong b) (hlong b') h)

end Sys2Proof.Machine
end

section
/-! The five commands: what each answers in a good READY state, how many samples the answer has, and how many bits its
frame (spec/43_commands.md R161, R170 to R175). -/

namespace Sys2Proof.Machine

open Sys2Proof.Claims

/-! ### The bits of an unsigned word -/

/-- `bits_w` of a word of `w` bits read as unsigned is the whole word (R8), as R93 has it for `rn16`. -/
theorem bitsW_toNat {w : Nat} (x : BitVec w) : bitsW w x.toNat = wordBits x := by
  have hlow : ((x.toNat : Int) % 2 ^ w).toNat = x.toNat % 2 ^ w := by
    exact_mod_cast Int.toNat_natCast (x.toNat % 2 ^ w)
  rw [bitsW, hlow, bitsOfNat_mod, wordBits]

/-! ### Sample counts -/

theorem sum_trcalLengths (s : State) (i : Instr) : (trcalLengths s i).sum = trcalSamples s i := by
  cases i <;> rfl

/-- One data-0 for each 0 bit and one data-1 for each 1 bit (R161). -/
theorem sum_symbolLengths (s : State) (b : Bits) :
    (b.map (symbolLength s)).sum = held s.nData0 * b.count false + held s.nData1 * b.count true := by
  induction b with
  | nil => rfl
  | cons bit b ih =>
    rw [List.map_cons, List.sum_cons, ih]
    cases bit with
    | false => simp [symbolLength, Nat.mul_succ]; omega
    | true => simp [symbolLength, Nat.mul_succ]; omega

/-! ### The obligations -/

/-- Settles O22: the mask check is what makes a SELECT accepted; its frame is by definition the fields
of the rule with their CRC-16. -/
theorem selectEmitsItsFrameOrReportsTheMismatch : Obligations.SelectEmitsItsFrameOrReportsTheMismatch := by
  rintro s g a p l b m x cmd hs hm rfl
  split
  next hlength => exact exec_of_isAccepted hs hm (decide_eq_true hlength)
  next hlength => exact exec_of_not_isAccepted hm rfl (decide_eq_false hlength)

/-- Settles O23: a QUERY is always accepted, and its framing is the preamble. -/
theorem queryEmitsItsFrameBehindThePreamble : Obligations.QueryEmitsItsFrameBehindThePreamble := by
  rintro s d m x e n g q cmd hs hm rfl
  exact exec_of_isAccepted hs hm rfl

/-- Settles O24: a QUERYREP is always accepted, and its framing is frame-sync. -/
theorem queryrepEmitsItsFrame : Obligations.QueryrepEmitsItsFrame :=
  fun _ _ hs hm => exec_of_isAccepted hs hm rfl

/-- Settles O25: a QUERYADJUST is always accepted, and its framing is frame-sync. -/
theorem queryadjustEmitsItsFrame : Obligations.QueryadjustEmitsItsFrame :=
  fun _ _ _ hs hm => exec_of_isAccepted hs hm rfl

/-- Settles O26: an ACK is always accepted, and its field is `bits_16` of `rn16`. -/
theorem ackEmitsItsFrame : Obligations.AckEmitsItsFrame := by
  intro s r hs hm
  rw [bitsW_toNat]
  exact exec_of_isAccepted hs hm rfl

/-- Settles O27: the waveform is the delimiter and its segments, and each segment has its nominal count. -/
theorem responsesHaveTheSpecifiedSampleCount : Obligations.ResponsesHaveTheSpecifiedSampleCount := by
  intro s i hs hm hi
  refine ⟨_, _, exec_of_isAccepted hs hm hi, rfl, ?_⟩
  rw [length_waveform hs hm (isCommand_of_isAccepted hi), sum_trcalLengths, sum_symbolLengths, ← Nat.add_assoc]

/-- Settles O28: the widths of the fields add up. -/
theorem framesHaveTheSpecifiedLengths : Obligations.FramesHaveTheSpecifiedLengths := by
  refine ⟨fun g a b p l m x => ⟨?_, length_selectFrame g a p l b m x⟩, fun d m x e n g q => ⟨?_, ?_⟩, fun n => ?_,
    fun n u => ?_, fun r => ?_⟩
  · simp [selectBits]
    omega
  · simp [queryBits]
  · simp [queryFrame, queryBits]
  · simp [queryrepFrame]
  · simp [queryadjustFrame]
  · simp [ackFrame]

end Sys2Proof.Machine
end

section
/-! The error statuses: which checks a request passes and in what order, that its one response reports the first that
fails, and that an error has no samples and writes no state but for a failed CONFIGURE
(spec/60_exceptions.md R201 to R208). -/

namespace Sys2Proof.Machine

open Sys2Proof.Claims

/-! ### The status of an instruction -/

/-- The status of a command, by `MODE` and then by whether its own check passes (R205, R206). -/
def commandStatus : Mode → Bool → Status
  | .unconfigured, _ => .notConfigured
  | .ready, accepted => if accepted then .ok else .maskLengthMismatch

/-- The status of an instruction, by the first of its checks that fails (R208). -/
def instrStatus (mode : Mode) (i : Instr) : Status :=
  match i with
  | .reserved6 => .illegalRequest
  | .reserved7 => .illegalRequest
  | .configure R P => if configValid R.toInt P.toInt then .ok else .configInvalid
  | _ => commandStatus mode (isAccepted i)

theorem instrStatus_of_isCommand {i : Instr} (h : isCommand i = true) (mode : Mode) :
    instrStatus mode i = commandStatus mode (isAccepted i) := by
  cases i with
  | configure R P => cases h
  | reserved6 => cases h
  | reserved7 => cases h
  | _ => rfl

theorem commandStatus_ne_configInvalid (mode : Mode) (accepted : Bool) :
    commandStatus mode accepted ≠ .configInvalid := by
  cases mode <;> cases accepted <;> decide

theorem commandStatus_eq_maskLengthMismatch_iff (mode : Mode) (accepted : Bool) :
    commandStatus mode accepted = .maskLengthMismatch ↔ mode = .ready ∧ accepted = false := by
  cases mode <;> cases accepted <;> decide

theorem instrStatus_configure_ne_notConfigured (mode : Mode) (R P : Word) :
    instrStatus mode (.configure R P) ≠ .notConfigured := by
  rw [instrStatus]
  split <;> decide

/-- Only CONFIGURE checks a pair (R207). -/
theorem instrStatus_eq_configInvalid_iff (mode : Mode) (i : Instr) : instrStatus mode i = .configInvalid ↔
    ∃ R P : Word, i = .configure R P ∧ configValid R.toInt P.toInt = false := by
  cases i with
  | configure R P => simp [instrStatus]
  | reserved6 => simp [instrStatus]
  | reserved7 => simp [instrStatus]
  | _ => simp [instrStatus, commandStatus_ne_configInvalid]

/-- Only SELECT checks a mask (R206). -/
theorem select_of_instrStatus {mode : Mode} {i : Instr} (h : instrStatus mode i = .maskLengthMismatch) :
    ∃ (g : SelectTarget) (a p l : Word) (b : MemBank) (m : Bits) (x : Bool),
      i = .select g a b p l m x ∧ (m.length : Int) ≠ l.toInt := by
  cases i with
  | select g a b p l m x =>
    obtain ⟨-, hi⟩ := (commandStatus_eq_maskLengthMismatch_iff _ _).1 h
    exact ⟨g, a, p, l, b, m, x, rfl, of_decide_eq_false hi⟩
  | configure R P =>
    rw [instrStatus] at h
    split at h
    · cases h
    · cases h
  | reserved6 => cases h
  | reserved7 => cases h
  | _ =>
    obtain ⟨-, hi⟩ := (commandStatus_eq_maskLengthMismatch_iff _ _).1 h
    cases hi

/-! ### What the response reports -/

/-- An instruction's one response reports its status, and with an error there are no samples (R202, R203, R208). -/
theorem exec_status {i : Instr} {s t : State} (h : exec i s = .next t) :
    ∃ w, t.responses = s.responses ++ [⟨instrStatus s.mode i, w⟩] ∧ (instrStatus s.mode i ≠ .ok → w = []) := by
  rcases exec_cases h with ⟨hc, hm, rfl⟩ | ⟨hc, hi, hm, rfl⟩ | ⟨hi, hm, w, rfl⟩ | ⟨rfl | rfl, rfl⟩ |
    ⟨R, P, rfl, hv, rfl⟩ | ⟨R, P, rfl, hv, rfl⟩
  · exact ⟨[], by simp [instrStatus_of_isCommand hc, hm, commandStatus], fun _ => rfl⟩
  · exact ⟨[], by simp [instrStatus_of_isCommand hc, hm, hi, commandStatus], fun _ => rfl⟩
  · have hok : instrStatus s.mode i = .ok := by
      rw [instrStatus_of_isCommand (isCommand_of_isAccepted hi), hm, hi, commandStatus, if_pos rfl]
    exact ⟨w, by rw [hok]; rfl, fun herror => absurd hok herror⟩
  · exact ⟨[], rfl, fun _ => rfl⟩
  · exact ⟨[], rfl, fun _ => rfl⟩
  · exact ⟨[], by simp [instrStatus, hv], fun _ => rfl⟩
  · exact ⟨[], by simp [instrStatus, hv], fun _ => rfl⟩

/-- The response that an instruction appended has the instruction's status, and with an error no samples. -/
theorem status_of_response {i : Instr} {s t : State} {resp : Response} (h : exec i s = .next t)
    (hr : t.responses = s.responses ++ [resp]) :
    resp.status = instrStatus s.mode i ∧ (resp.status ≠ .ok → resp.samples = []) := by
  obtain ⟨w, hw, hsamples⟩ := exec_status h
  obtain rfl : resp = ⟨instrStatus s.mode i, w⟩ := List.singleton_inj.1 (List.append_cancel_left (hr.symm.trans hw))
  exact ⟨rfl, hsamples⟩

theorem exec_command_of_unconfigured {i : Instr} {s : State} (hi : isCommand i = true) (hm : s.mode = .unconfigured) :
    exec i s = .next (s.raise .notConfigured) := by
  cases i with
  | configure R P => cases hi
  | reserved6 => cases hi
  | reserved7 => cases hi
  | _ => exact whenReady_unconfigured hm _

/-- An instruction that ends with an error writes no state, unless it is a CONFIGURE, which then leaves UNCONFIGURED
(R203). -/
theorem sameRegisters_or_unconfigured_of_error {i : Instr} {s t : State} (h : exec i s = .next t)
    (herror : instrStatus s.mode i ≠ .ok) :
    SameRegisters t s ∨ ∃ R P : Word, i = .configure R P ∧ t.mode = .unconfigured := by
  obtain hsame | ⟨R, P, rfl⟩ := exec_sameRegisters_or_configure h
  · exact .inl hsame
  · have hinvalid : ¬configValid R.toInt P.toInt = true := fun hv => herror (if_pos hv)
    rw [exec_configure_of_invalid hinvalid] at h
    cases h
    exact .inr ⟨R, P, rfl, rfl⟩

/-! ### A request record -/

/-- A record with an unnamed code is answered before `MODE` is looked at (R204, R208). -/
theorem step_of_unnamedCode {s : State} {r : Request} {rest : List PortEvent} (h : s.inputs = .request r :: rest)
    (hd : decode r = .error .unnamedCode) :
    step s = .next (State.raise { s with inputs := rest } .illegalRequest) :=
  step_of_decode_error h hd

theorem step_of_reservedKind {s : State} {r : Request} {rest : List PortEvent} (h : s.inputs = .request r :: rest)
    (hk : r.reqKind = 6 ∨ r.reqKind = 7) :
    step s = .next (State.raise { s with inputs := rest } .illegalRequest) := by
  obtain ⟨kind, fields⟩ := r
  obtain rfl | rfl := hk
  · exact step_of_inputs_request (i := .reserved6) h rfl
  · exact step_of_inputs_request (i := .reserved7) h rfl

theorem statusByPriority_of_decode {r : Request} {i : Instr} (h : decode r = .ok i) (s : State) :
    statusByPriority s r = instrStatus s.mode i := by
  rw [statusByPriority, h]
  cases i with
  | configure R P => rfl
  | reserved6 => rfl
  | reserved7 => rfl
  | _ => cases s.mode <;> rfl

theorem statusByPriority_of_decode_error {r : Request} {e : DecodeError} (h : decode r = .error e) (s : State) :
    statusByPriority s r = .illegalRequest := by
  rw [statusByPriority, h]

/-! ### The obligations -/

/-- Settles O7: a reserved kind raises the error itself, and the decoder finds no name for the code of any other such
record. -/
theorem illegalRequestsAreRefusedBeforeTheModeCheck : Obligations.IllegalRequestsAreRefusedBeforeTheModeCheck := by
  rintro s r rest h (hk | hk | ⟨t, a, p, l, b, m, x, rfl, hmask, ht⟩ | ⟨d, g, m, n, x, q, rfl⟩ | ⟨n, u, rfl, hu⟩)
  · exact step_of_reservedKind h (.inl hk)
  · exact step_of_reservedKind h (.inr hk)
  · have hnone : selectTargetOf t = none := by rcases ht with rfl | rfl | rfl <;> rfl
    refine step_of_unnamedCode h ?_
    rw [decode_selectRecord, if_pos ((maskFits_iff _).2 hmask), hnone, Option.elim_none]
  · exact step_of_unnamedCode h (decode_queryRecord d m x 0b01#2 n g q)
  · have hnone : updnOf u = none := by rcases hu with rfl | rfl | rfl | rfl | rfl <;> rfl
    refine step_of_unnamedCode h ?_
    rw [decode_queryadjustRecord, hnone, Option.elim_none]

/-- Settles O9: `MODE` is a command's first check, and no check of CONFIGURE. -/
theorem commandsBeforeConfigurationAnswerNotConfigured :
    Obligations.CommandsBeforeConfigurationAnswerNotConfigured := by
  refine ⟨fun s i hi hm => exec_command_of_unconfigured hi hm, fun s t R P h => ?_⟩
  obtain ⟨w, hw, -⟩ := exec_status h
  exact ⟨_, hw, instrStatus_configure_ne_notConfigured s.mode R P⟩

/-- Settles O10: the mask check is SELECT's alone. -/
theorem maskLengthMismatchIsRaisedExactlyBySuchSelects :
    Obligations.MaskLengthMismatchIsRaisedExactlyBySuchSelects := by
  refine ⟨fun s g a p l b m x hm hlength => exec_of_not_isAccepted hm rfl (decide_eq_false hlength),
    fun s t i w h hr => ?_⟩
  exact select_of_instrStatus (status_of_response h hr).1.symm

/-- Settles O11: the check of a pair is CONFIGURE's alone, and its only one. -/
theorem configInvalidIsRaisedExactlyByInvalidConfigures :
    Obligations.ConfigInvalidIsRaisedExactlyByInvalidConfigures := by
  intro s t i resp h hr
  rw [(status_of_response h hr).1]
  exact instrStatus_eq_configInvalid_iff s.mode i

/-- Settles O12: a record the port can carry is a request, which answers in a good state with its status, or has an
unnamed code. -/
theorem everyRequestReportsTheStatusOfTheFirstFailedCheck :
    Obligations.EveryRequestReportsTheStatusOfTheFirstFailedCheck := by
  intro s r rest h hs hc
  obtain ⟨i, hd⟩ | hd := decode_of_carriable hc
  · obtain ⟨t, ht⟩ := exec_answers (State.registersAgree_withInputs hs rest) i
    obtain ⟨w, hw, -⟩ := exec_status ht
    rw [statusByPriority_of_decode hd]
    exact ⟨t, w, (step_of_inputs_request h hd).trans ht, exec_inputs ht, hw⟩
  · rw [statusByPriority_of_decode_error hd]
    exact ⟨_, [], step_of_unnamedCode h hd, rfl, rfl⟩

/-- Settles O13: by what the decoder makes of the record; of the instructions that end with an error only CONFIGURE
writes. -/
theorem errorsEmitNoSamplesAndWriteNoState : Obligations.ErrorsEmitNoSamplesAndWriteNoState := by
  intro s t r rest resp hin h hr herror
  cases hd : decode r with
  | ok i =>
    rw [step_of_inputs_request hin hd] at h
    obtain ⟨hstatus, hsamples⟩ := status_of_response h hr
    refine ⟨hsamples herror, exec_inputs h, ?_⟩
    obtain hsame | ⟨R, P, rfl, hm⟩ := sameRegisters_or_unconfigured_of_error h (hstatus ▸ herror)
    · exact .inl (sameRegisters_trans hsame (sameRegisters_withInputs s rest))
    · exact .inr ⟨R, P, rfl, hm⟩
  | error e =>
    rw [step_of_decode_error hin hd] at h
    obtain ⟨-, rfl⟩ := turnAway_next h
    have hresp : ⟨.illegalRequest, []⟩ = resp := List.singleton_inj.1 (List.append_cancel_left hr)
    exact ⟨hresp ▸ rfl, rfl, .inl (sameRegisters_trans (SameRegisters.respond _ _ _) (sameRegisters_withInputs s rest))⟩

/-- Settles O14: the table of codes, status by status. -/
theorem statusCodesAreNumberedAsSpecified : Obligations.StatusCodesAreNumberedAsSpecified := by
  refine ⟨rfl, rfl, rfl, rfl, rfl, fun status => ?_⟩
  cases status <;> decide

end Sys2Proof.Machine
end

section
/-! The values of the ten state elements after reset (spec/70_reset_and_hazards.md R230). -/

namespace Sys2Proof.Machine

/-- Settles O1, element by element: `CFG_P` is the default divisor `P_DEFAULT`, written as a word, and each of the others
is what the reset state's own definition writes in it. -/
theorem resetRegistersHoldTheSpecifiedValues : Obligations.ResetRegistersHoldTheSpecifiedValues := by
  have hcfgP : State.reset.cfgP = BitVec.ofNat 32 Config.pDefault := rfl
  exact ⟨rfl, rfl, hcfgP, rfl, rfl, rfl, rfl, rfl, rfl, rfl⟩

end Sys2Proof.Machine
end
